-- ==== Sys2Proof/Word.lean ====
section
/-! DEFINITION. The fixed widths of the block (00_scope.md R7): bytes, 32-bit words, binary64 patterns. -/

namespace Sys2Proof

/-- One byte of a buffer. -/
abbrev Byte := BitVec 8

/-- A register, a bus datum, a bus address, a command word, a VAL_MEM word: all 32 bits (R7). -/
abbrev Word := BitVec 32

/-- The 64-bit pattern of an IEEE-754 binary64 value (R7, R11: `Bits64`). -/
abbrev F64 := BitVec 64

end Sys2Proof
end

