-- ==== Sys2Proof/Syntax.lean ====
section
/-! DEFINITION. The nine commands (30_encoding.md R94), one constructor per row of spec/opcode_table.json. Each carries
its BPS field `n` (R91); NOP, SER and DESER carry it too and ignore it (R96, R101). -/

namespace Sys2Proof

inductive Instr where
  /-- NOP (44_control.md R190) -/
  | nop (n : Nat)
  /-- PACK (40_bitpacker.md R111) -/
  | pack (n : Nat)
  /-- MAP (41_constellation.md R144) -/
  | map (n : Nat)
  /-- SLICE (41_constellation.md R145) -/
  | slice (n : Nat)
  /-- UNPACK (40_bitpacker.md R114) -/
  | unpack (n : Nat)
  /-- MOD (42_pipeline.md R170) -/
  | mod (n : Nat)
  /-- DEMOD (42_pipeline.md R171) -/
  | demod (n : Nat)
  /-- SER (43_serializer.md R182) -/
  | ser (n : Nat)
  /-- DESER (43_serializer.md R183) -/
  | deser (n : Nat)
deriving DecidableEq, Repr

/-- The command's BPS field (R91). -/
def Instr.bps : Instr → Nat
  | .nop n => n
  | .pack n => n
  | .map n => n
  | .slice n => n
  | .unpack n => n
  | .mod n => n
  | .demod n => n
  | .ser n => n
  | .deser n => n

/-- Whether the command uses BPS (R94, R96). -/
def Instr.usesBps : Instr → Bool
  | .nop _ => false
  | .pack _ => true
  | .map _ => true
  | .slice _ => true
  | .unpack _ => true
  | .mod _ => true
  | .demod _ => true
  | .ser _ => false
  | .deser _ => false

end Sys2Proof
end

