-- ==== Sys2Proof/WellFormed.lean ====
section
/-! DEFINITION. Which commands can be encoded: BPS is a 6-bit unsigned field, "an unsigned integer from 0 to 63"
(30_encoding.md R91). Which values are LEGAL is no matter of form: it is checked when the command runs
(60_exceptions.md R205). -/

namespace Sys2Proof

/-- The command fits the format F_CMD (R90, R91). -/
abbrev Instr.WellFormed (i : Instr) : Prop := i.bps < 64

end Sys2Proof
end

