-- ==== Sys2Proof/Decode.lean ====
section
/-! DEFINITION. The command word F_CMD (30_encoding.md R90 to R101): decoder, encoder, disassembly. Every command is
exactly one 32-bit word (R98). -/

namespace Sys2Proof

/-- Why a word is no command. Either way it completes with UnsupportedMode (60_exceptions.md R208). -/
inductive DecodeError where
  /-- `CMD[31:14] ≠ 0` (R93). -/
  | reservedBits
  /-- OPC is 0x09 to 0xFF (R95). -/
  | reservedOpcode
deriving DecidableEq, Repr

/-- OPC, `CMD[7:0]` (R90, R92). -/
def opcField (w : Word) : Nat := (w.extractLsb' 0 8).toNat

/-- BPS, `CMD[13:8]`, zero-extended (R90, R91). -/
def bpsField (w : Word) : Nat := (w.extractLsb' 8 6).toNat

/-- RSV, `CMD[31:14]` (R90, R93). -/
def rsvField (w : Word) : Nat := (w.extractLsb' 14 18).toNat

/-- The opcode map R94; every other value is reserved (R95). -/
def ofOpcode (op n : Nat) : Option Instr :=
  match op with
  | 0 => some (.nop n)
  | 1 => some (.pack n)
  | 2 => some (.map n)
  | 3 => some (.slice n)
  | 4 => some (.unpack n)
  | 5 => some (.mod n)
  | 6 => some (.demod n)
  | 7 => some (.ser n)
  | 8 => some (.deser n)
  | _ => none

/-- The decoder, total on any word (R90 to R95). -/
def decode (w : Word) : Except DecodeError Instr :=
  if rsvField w = 0 then
    match ofOpcode (opcField w) (bpsField w) with
    | some i => .ok i
    | none => .error .reservedOpcode
  else .error .reservedBits

/-- OPC of a command (R94). -/
def Instr.opcode : Instr → BitVec 8
  | .nop _ => 0x00#8
  | .pack _ => 0x01#8
  | .map _ => 0x02#8
  | .slice _ => 0x03#8
  | .unpack _ => 0x04#8
  | .mod _ => 0x05#8
  | .demod _ => 0x06#8
  | .ser _ => 0x07#8
  | .deser _ => 0x08#8

/-- The word of a well-formed command: the concatenation RSV, BPS, OPC of R90 with RSV = 0. -/
def encode (i : Instr) : Word := 0#18 ++ BitVec.ofNat 6 i.bps ++ i.opcode

/-- The instruction the decoder reads from the low `nbits` bits of `w`, all higher bits 0. A command is one 32-bit word
with bit 0 least significant (R8, R98), so the table's numbering is the word's own. A row that needed a bit above bit 31
would be no command. -/
def decodeTableWord (nbits w : Nat) : Option Instr :=
  if w % 2 ^ nbits < 2 ^ 32 then (decode (BitVec.ofNat 32 (w % 2 ^ nbits))).toOption else none

/-- A command's mnemonic (R94). -/
def Instr.mnemonic : Instr → String
  | .nop _ => "NOP"
  | .pack _ => "PACK"
  | .map _ => "MAP"
  | .slice _ => "SLICE"
  | .unpack _ => "UNPACK"
  | .mod _ => "MOD"
  | .demod _ => "DEMOD"
  | .ser _ => "SER"
  | .deser _ => "DESER"

/-- The four written forms of a command word (R101). -/
inductive Disassembly where
  /-- `MNEMONIC, n` -/
  | withOperand (mnemonic : String) (n : Nat)
  /-- `MNEMONIC` -/
  | plain (mnemonic : String)
  /-- `MNEMONIC` with the ignored field in braces, `bps=n` -/
  | withIgnoredBps (mnemonic : String) (n : Nat)
  /-- `.word w` -/
  | word (w : Word)
deriving DecidableEq, Repr

/-- Disassembly of any word (R101). -/
def disassemble (w : Word) : Disassembly :=
  match decode w with
  | .error _ => .word w
  | .ok i =>
    if i.usesBps then .withOperand i.mnemonic i.bps
    else if i.bps = 0 then .plain i.mnemonic
    else .withIgnoredBps i.mnemonic i.bps

end Sys2Proof
end

