-- ==== Sys2Proof/Config.lean ====
section
/-! DEFINITION. What an implementation fixes (00_scope.md R6, 20_memory.md R61) and the model's free value
(70_reset_and_hazards.md R242). -/

namespace Sys2Proof

/-- The implementation parameters of R6. The state carries them (the registers MAXBPS, CAP_BYTE, CAP_VAL and
CAP_SYM read them), so that every definition of the model is written for any value of them. -/
structure Params where
  /-- `MAX_BPS`: the largest bits-per-symbol a command accepts. -/
  maxBps : Nat
  /-- `BYTE_CAP`: the capacity of BYTE_MEM in bytes. -/
  byteCap : Nat
  /-- `VAL_CAP`: the capacity of VAL_MEM in 32-bit words. -/
  valCap : Nat
  /-- `SYM_CAP`: the capacity of SYM_MEM in 16-byte records. -/
  symCap : Nat
deriving DecidableEq, Repr

/-- The legal ranges of R6. -/
abbrev Params.Legal (p : Params) : Prop :=
  2 ≤ p.maxBps ∧ p.maxBps ≤ 16 ∧ 1 ≤ p.byteCap ∧ p.byteCap ≤ 65536 ∧
  1 ≤ p.valCap ∧ p.valCap ≤ 262144 ∧ 1 ≤ p.symCap ∧ p.symCap ≤ 1048576

/-- This instance's values (R6). -/
def Config.params : Params := { maxBps := 16, byteCap := 4096, valCap := 32768, symCap := 32768 }

/-- Bytes the register window maps (R61); its base is 0. -/
def Config.regsBytes : Nat := 0x1000

/-- Base of the BYTE window (R61). -/
def Config.byteBase : Nat := 0x00010000

/-- Base of the VAL window (R61). -/
def Config.valBase : Nat := 0x00100000

/-- Base of the SYM window (R61). -/
def Config.symBase : Nat := 0x01000000

/-- FREE VALUE (R242): the byte at a buffer address that neither the host nor the engine has written since the reset
numbered by the first argument. "A model draws each byte freely": it has no body, so nothing can be proved
of it. Log 3. -/
opaque Config.unwrittenByte : Nat → Nat → Byte

end Sys2Proof
end

