-- ==== Sys2Proof/Machine/State.lean ====
section
/-! DEFINITION. The state of the block (10_state.md R20 to R55) and the state right after reset
(70_reset_and_hazards.md R240). -/

namespace Sys2Proof.Machine

/-- Why the machine stops with a fault: never. Every bad host access of the spec gets a response and lets the machine
go on (20_memory.md R62 to R65), and every bad command completes with an error code (60_exceptions.md R206). Log 8. -/
inductive Fault where
deriving DecidableEq, Repr

/-- Why a step is refused. -/
inductive Refusal where
  /-- Raised by an arm of `exec` whose command has no meaning yet. Safe: the machine stops. No arm raises it. -/
  | notModelled (mnemonic : String)
deriving DecidableEq, Repr

/-- The error conditions of a command (60_exceptions.md R204). -/
inductive ErrCode where
  | invalidParameter
  | corruptSignal
  | unsupportedMode
  | capacityExceeded
deriving DecidableEq, Repr

/-- CTRL (10_state.md R26). Bits 31:4 are reserved, read 0 and hold nothing. -/
structure Ctrl where
  /-- bit 0: interrupt enable (R27) -/
  ie : Bool
  /-- bit 1: DESER truncates (R28) -/
  trunc : Bool
  /-- bit 2: the slicer saturates (R29) -/
  clamp : Bool
  /-- bit 3: odd bits-per-symbol are accepted (R30) -/
  legacyOdd : Bool
deriving DecidableEq, Repr

/-- STATUS (10_state.md R31). Bits 7 and 31:12 are reserved, read 0 and hold nothing. -/
structure Status where
  /-- bit 0: a command is accepted and not yet complete (R32) -/
  busy : Bool
  /-- bit 1: the last accepted command has completed (R33) -/
  done : Bool
  /-- bit 2: the last completed command failed (R34) -/
  err : Bool
  /-- bit 3, sticky: an access was refused because BUSY was 1 (R35) -/
  ovr : Bool
  /-- bit 4, sticky: a DESER dropped a partial record (R36) -/
  truncSeen : Bool
  /-- bit 5, sticky: a SLICE or DEMOD met an out-of-lattice point (R37) -/
  oorSeen : Bool
  /-- bit 6, sticky: a SLICE or DEMOD met a non-finite point (R38) -/
  nfSeen : Bool
  /-- bits 11:8: error code of the last failed command (R39) -/
  errcode : BitVec 4
deriving DecidableEq, Repr

/-- The size of a host transaction: 1, 2 or 4 bytes (20_memory.md R62). -/
inductive Size where
  | one
  | two
  | four
deriving DecidableEq, Repr

/-- A host transaction (20_memory.md R62). A write's datum is the low `8n` bits of `v` (log 9). -/
inductive Txn where
  /-- `MemRead(addr, n)` -/
  | read (addr : Word) (size : Size)
  /-- `MemWrite(addr, n, v)` -/
  | write (addr : Word) (size : Size) (v : Word)
deriving DecidableEq, Repr

/-- The response to a host transaction (20_memory.md R62). -/
inductive Resp where
  | okay
  | slverr
  | decerr
deriving DecidableEq, Repr

/-- What a transaction gives the host: the response, and a read's datum zero-extended to 32 bits (0 for a write and for a
failed read). -/
structure Reply where
  resp : Resp
  data : Word
deriving DecidableEq, Repr

/-- What can happen next, as the outside world and the unspecified latency decide it (00_scope.md R13,
70_reset_and_hazards.md R240, R255). Logs 1 and 2. -/
inductive Event where
  /-- one transaction of the host (20_memory.md R62) -/
  | bus (t : Txn)
  /-- the host polls STATUS until BUSY = 0 (30_encoding.md R100, `wait`) -/
  | wait
  /-- the engine's turn: if a command is pending, it completes now (60_exceptions.md R202) -/
  | engine
  /-- reset is asserted (70_reset_and_hazards.md R240) -/
  | reset
deriving DecidableEq, Repr

/-- The buffers' bytes at their host addresses (20_memory.md R61): the addresses written since the last reset, in
rising order, each with its byte. An address not listed has no value of its own: it reads as the free value
(70_reset_and_hazards.md R242, log 3). -/
abbrev Memory := List Host.Cell

/-- The canonical form: strictly rising addresses. An unlisted address has no value, so no entry can equal it. -/
abbrev Memory.wf (m : Memory) : Prop := m.Pairwise fun x y => x.1 < y.1

/-- The state: the registers and buffers of 10_state.md, and three fields of the model's own (`epoch`, `reply`,
`script`). -/
structure State where
  /-- MAXBPS, CAP_BYTE, CAP_VAL, CAP_SYM: read-only constants (R22 to R25) -/
  params : Params
  /-- CTRL (R26) -/
  ctrl : Ctrl
  /-- STATUS (R31) -/
  status : Status
  /-- CMD: the last accepted command word; with BUSY, the pending command (R41, R53) -/
  cmd : Word
  /-- BYTE_LEN (R42) -/
  byteLen : Word
  /-- VAL_CNT (R43) -/
  valCnt : Word
  /-- SYM_CNT (R44) -/
  symCnt : Word
  /-- SIG_LEN (R45) -/
  sigLen : Word
  /-- ROT_COS_LO (R46) -/
  rotCosLo : Word
  /-- ROT_COS_HI (R46) -/
  rotCosHi : Word
  /-- ROT_SIN_LO (R47) -/
  rotSinLo : Word
  /-- ROT_SIN_HI (R47) -/
  rotSinHi : Word
  /-- BYTE_MEM, VAL_MEM and SYM_MEM (R49, R50, R52) -/
  mem : Memory
  /-- The model's own: the number of resets so far, which selects the bytes drawn at the last one (log 3) -/
  epoch : Nat
  /-- The model's own: what the host's last transaction got (log 5) -/
  reply : Option Reply
  /-- The model's own: the events to come, the next one first (log 1) -/
  script : List Event
deriving DecidableEq, Repr

/-- CTRL after reset (R26, 70_reset_and_hazards.md R241). -/
def Ctrl.reset : Ctrl := { ie := false, trunc := false, clamp := false, legacyOdd := false }

/-- STATUS after reset (R31). -/
def Status.reset : Status :=
  { busy := false, done := false, err := false, ovr := false, truncSeen := false, oorSeen := false,
    nfSeen := false, errcode := 0#4 }

/-- The machine right after reset (10_state.md R20, 70_reset_and_hazards.md R240): every register at its reset value,
no buffer byte written, nothing to come. -/
def State.reset : State :=
  { params := Config.params
    ctrl := Ctrl.reset
    status := Status.reset
    cmd := 0x00000000#32
    byteLen := 0x00000000#32
    valCnt := 0x00000000#32
    symCnt := 0x00000000#32
    sigLen := 0x00000000#32
    rotCosLo := 0x8C811C17#32
    rotCosHi := 0x3FEF838B#32
    rotSinLo := 0x7E0B7389#32
    rotSinHi := 0x3FC63A1A#32
    mem := []
    epoch := 0
    reply := none
    script := [] }

end Sys2Proof.Machine
end

