-- ==== Sys2Proof/Machine/Flags.lean ====
section
/-! DEFINITION. Every flag of the block: CTRL and STATUS as words, the W1C write, what acceptance and completion do to
STATUS, the sticky flags, the irq output. -/

namespace Sys2Proof.Machine

/-- The number of an error condition (60_exceptions.md R204). -/
def ErrCode.code : ErrCode → BitVec 4
  | .invalidParameter => 1#4
  | .corruptSignal => 2#4
  | .unsupportedMode => 3#4
  | .capacityExceeded => 4#4

/-- CTRL as the host reads it (10_state.md R26). -/
def Ctrl.toWord (c : Ctrl) : Word :=
  0#28 ++ BitVec.ofBool c.legacyOdd ++ BitVec.ofBool c.clamp ++ BitVec.ofBool c.trunc ++ BitVec.ofBool c.ie

/-- What a write of `w` stores in CTRL: bits 3:0 (10_state.md R26). -/
def Ctrl.ofWord (w : Word) : Ctrl :=
  { ie := w.getLsbD 0, trunc := w.getLsbD 1, clamp := w.getLsbD 2, legacyOdd := w.getLsbD 3 }

/-- STATUS as the host reads it (10_state.md R31). -/
def Status.toWord (s : Status) : Word :=
  0#20 ++ s.errcode ++ 0#1 ++ BitVec.ofBool s.nfSeen ++ BitVec.ofBool s.oorSeen ++ BitVec.ofBool s.truncSeen ++
    BitVec.ofBool s.ovr ++ BitVec.ofBool s.err ++ BitVec.ofBool s.done ++ BitVec.ofBool s.busy

/-- A host write of `w` to STATUS: a bit written 1 clears its field (10_state.md R40). -/
def Status.writeOneToClear (s : Status) (w : Word) : Status :=
  { s with
    done := s.done && !w.getLsbD 1
    err := s.err && !w.getLsbD 2
    errcode := if w.getLsbD 2 then 0#4 else s.errcode
    ovr := s.ovr && !w.getLsbD 3
    truncSeen := s.truncSeen && !w.getLsbD 4
    oorSeen := s.oorSeen && !w.getLsbD 5
    nfSeen := s.nfSeen && !w.getLsbD 6 }

/-- Acceptance of a command (60_exceptions.md R200). -/
def Status.accepted (s : Status) : Status :=
  { s with busy := true, done := false, err := false, errcode := 0#4 }

/-- Completion of a failed command (60_exceptions.md R206). -/
def Status.failed (s : Status) (e : ErrCode) : Status :=
  { s with busy := false, done := true, err := true, errcode := e.code }

/-- Completion of a successful command (60_exceptions.md R207). -/
def Status.succeeded (s : Status) : Status :=
  { s with busy := false, done := true, err := false, errcode := 0#4 }

/-- A host access was refused because BUSY was 1 (10_state.md R35). -/
def Status.overrun (s : Status) : Status := { s with ovr := true }

/-- A DESER dropped a partial record (10_state.md R36). -/
def Status.truncated (s : Status) : Status := { s with truncSeen := true }

/-- A SLICE or DEMOD met an out-of-lattice (`oor`) or non-finite (`nf`) point: set, never cleared
(10_state.md R37, R38). -/
def Status.sliced (s : Status) (oor nf : Bool) : Status :=
  { s with oorSeen := s.oorSeen || oor, nfSeen := s.nfSeen || nf }

/-- The interrupt output (10_state.md R54, 60_exceptions.md R212). -/
def State.irq (s : State) : Bool := s.ctrl.ie && s.status.done

end Sys2Proof.Machine
end

