-- ==== Sys2Proof/Machine/Ops.lean ====
section
/-! DEFINITION. The named operations every meaning is built from: bytes of memory, the buffers' elements, the completion
of a command (the block's one "exception", 60_exceptions.md R206, and its counterpart R207), acceptance
(R200), the refusal of an access (70_reset_and_hazards.md R250, R251) and reset (R240). -/

namespace Sys2Proof.Machine

/-! ### Bytes -/

/-- The low `n` bytes of `v`, least significant first (20_memory.md R69). -/
def leBytes {w : Nat} (n : Nat) (v : BitVec w) : List Byte := (List.range n).map fun j => v.extractLsb' (8 * j) 8

/-- The number a list of bytes writes, least significant first (20_memory.md R69). -/
def leValue : List Byte → Nat
  | [] => 0
  | b :: bs => b.toNat + 256 * leValue bs

/-- Consecutive cells from address `base` up. -/
def cells (base : Nat) : List Byte → Memory
  | [] => []
  | b :: bs => (base, b) :: cells (base + 1) bs

/-- The byte written at address `a`, if any was. -/
def Memory.byteAt (m : Memory) (a : Nat) : Option Byte :=
  match m with
  | [] => none
  | (b, v) :: rest => if b = a then some v else Memory.byteAt rest a

/-- The bytes `bs` stored from address `base` up; every other address keeps what it had (20_memory.md R70). -/
def Memory.store (m : Memory) (base : Nat) (bs : List Byte) : Memory :=
  m.filter (fun c => c.1 < base) ++ cells base bs ++ m.filter (fun c => base + bs.length ≤ c.1)

/-- The byte at a buffer address: the last one written, or the one drawn at the last reset
(70_reset_and_hazards.md R242, log 3). -/
def State.readByte (s : State) (a : Nat) : Byte := (s.mem.byteAt a).getD (Config.unwrittenByte s.epoch a)

/-- `n` bytes from address `base` up. -/
def State.readBytes (s : State) (base n : Nat) : List Byte := (List.range n).map fun j => s.readByte (base + j)

/-- The bytes `bs` written from address `base` up. -/
def State.writeBytes (s : State) (base : Nat) (bs : List Byte) : State := { s with mem := s.mem.store base bs }

/-! ### Elements of the buffers -/

/-- `BYTE[i]` (00_scope.md R12, 20_memory.md R66). -/
def State.byteElem (s : State) (i : Nat) : Byte := s.readByte (Config.byteBase + i)

/-- `VAL[k]` (00_scope.md R12, 20_memory.md R67). -/
def State.valElem (s : State) (k : Nat) : Word := BitVec.ofNat 32 (leValue (s.readBytes (Config.valBase + 4 * k) 4))

/-- `RE[k]` (00_scope.md R12, 20_memory.md R68). -/
def State.reElem (s : State) (k : Nat) : F64 := BitVec.ofNat 64 (leValue (s.readBytes (Config.symBase + 16 * k) 8))

/-- `IM[k]` (00_scope.md R12, 20_memory.md R68). -/
def State.imElem (s : State) (k : Nat) : F64 := BitVec.ofNat 64 (leValue (s.readBytes (Config.symBase + 16 * k + 8) 8))

/-- `BYTE[0 ..] <- bs` (20_memory.md R66). -/
def State.setByteElems (s : State) (bs : List Byte) : State := s.writeBytes Config.byteBase bs

/-- `VAL[0 ..] <- ws` (20_memory.md R67). -/
def State.setValElems (s : State) (ws : List Word) : State :=
  s.writeBytes Config.valBase (ws.flatMap (leBytes 4))

/-- `RE[0 ..], IM[0 ..] <- ps` (20_memory.md R68): real part first. -/
def State.setSymElems (s : State) (ps : List (F64 × F64)) : State :=
  s.writeBytes Config.symBase (ps.flatMap fun p => leBytes 8 p.1 ++ leBytes 8 p.2)

/-! ### The command lifecycle -/

/-- Acceptance of the command word `w` (60_exceptions.md R200). -/
def State.accept (s : State) (w : Word) : State := { s with cmd := w, status := s.status.accepted }

/-- `raise Error(e)`: the effect of a failed command, and nothing else (60_exceptions.md R206). -/
def State.fail (s : State) (e : ErrCode) : State := { s with status := s.status.failed e }

/-- The completion of a successful command, after its own writes (60_exceptions.md R207). -/
def State.succeed (s : State) : State := { s with status := s.status.succeeded }

/-- The engine's completion of a command that ran to `r` (60_exceptions.md R202): R206 on the state before the command if it
failed, R207 on the state it made if it succeeded. -/
def State.complete (s : State) (r : Except ErrCode State) : State :=
  match r with
  | .error e => s.fail e
  | .ok t => t.succeed

/-- A host access refused because BUSY is 1: OVR is set and nothing else changes (70_reset_and_hazards.md R250, R251;
60_exceptions.md R201). -/
def State.refuse (s : State) : State := { s with status := s.status.overrun }

/-- Reset (70_reset_and_hazards.md R240, R242, R243): every register at its reset value, the pending command discarded,
every buffer byte drawn anew. The parameters are constants; the outside world goes on with its script. -/
def State.resetInput (s : State) : State :=
  { State.reset with params := s.params, epoch := s.epoch + 1, script := s.script }

/-- `s` with the word `w` accepted and the engine's turn next: what `State.withFetchWord` sets (log 1). -/
def State.placeCommand (s : State) (w : Word) : State :=
  { s.accept w with script := .engine :: s.script }

end Sys2Proof.Machine
end

