-- ==== Sys2Proof/Machine/Bus.lean ====
section
/-! DEFINITION. The host's side of the block: the address map, register accesses, bus transactions (10_state.md R20 to R48,
20_memory.md R60 to R72, 70_reset_and_hazards.md R250, R251). -/

namespace Sys2Proof.Machine

/-! ### The address map -/

/-- How many bytes a transaction of this size moves (20_memory.md R62). -/
def Size.bytes : Size → Nat
  | .one => 1
  | .two => 2
  | .four => 4

/-- The address is inside the mapped bytes of a buffer window (20_memory.md R61). -/
def bufferAddr (p : Params) (a : Nat) : Bool :=
  (decide (Config.byteBase ≤ a) && decide (a < Config.byteBase + p.byteCap)) ||
  (decide (Config.valBase ≤ a) && decide (a < Config.valBase + 4 * p.valCap)) ||
  (decide (Config.symBase ≤ a) && decide (a < Config.symBase + 16 * p.symCap))

/-- The address is mapped (20_memory.md R61). -/
def mappedAddr (p : Params) (a : Nat) : Bool := decide (a < Config.regsBytes) || bufferAddr p a

/-- Where a transaction goes, before BUSY is looked at. -/
inductive Route where
  /-- some byte of it is unmapped (20_memory.md R63) -/
  | unmapped
  /-- wrong size or alignment (20_memory.md R64, R65) -/
  | illegal
  /-- a legal access to the register at this offset (20_memory.md R64) -/
  | register (offset : Nat)
  /-- a legal access to a buffer (20_memory.md R65) -/
  | buffer
deriving DecidableEq, Repr

/-- The route of a transaction, in the order of the checks (70_reset_and_hazards.md R251, 90_conflicts.md C9): unmapped
first, then size and alignment. The addresses of an access are counted without wrapping: those beyond the address space are
unmapped. -/
def route (p : Params) (addr : Word) (size : Size) : Route :=
  if !((List.range size.bytes).all fun j => mappedAddr p (addr.toNat + j)) then .unmapped
  else if addr.toNat < Config.regsBytes then
    if size = .four ∧ addr.toNat % 4 = 0 then .register addr.toNat else .illegal
  else if addr.toNat % size.bytes = 0 then .buffer else .illegal

/-! ### Registers -/

/-- The registers of 10_state.md R20. -/
inductive Reg where
  | id | maxbps | capByte | capVal | capSym | ctrl | status | cmd
  | byteLen | valCnt | symCnt | sigLen | rotCosLo | rotCosHi | rotSinLo | rotSinHi
deriving DecidableEq, Repr

/-- The register at an offset of the register window; the other offsets are reserved (10_state.md R20, R48). -/
def Reg.ofOffset (offset : Nat) : Option Reg :=
  match offset with
  | 0x000 => some .id
  | 0x004 => some .maxbps
  | 0x008 => some .capByte
  | 0x00C => some .capVal
  | 0x010 => some .capSym
  | 0x020 => some .ctrl
  | 0x024 => some .status
  | 0x028 => some .cmd
  | 0x030 => some .byteLen
  | 0x034 => some .valCnt
  | 0x038 => some .symCnt
  | 0x03C => some .sigLen
  | 0x040 => some .rotCosLo
  | 0x044 => some .rotCosHi
  | 0x048 => some .rotSinLo
  | 0x04C => some .rotSinHi
  | _ => none

/-- What a register reads as (10_state.md R21 to R47): ID is hard-wired, the parameter registers read the parameters. -/
def State.readReg (s : State) (r : Reg) : Word :=
  match r with
  | .id => 0x51414D01#32
  | .maxbps => BitVec.ofNat 32 s.params.maxBps
  | .capByte => BitVec.ofNat 32 s.params.byteCap
  | .capVal => BitVec.ofNat 32 s.params.valCap
  | .capSym => BitVec.ofNat 32 s.params.symCap
  | .ctrl => s.ctrl.toWord
  | .status => s.status.toWord
  | .cmd => s.cmd
  | .byteLen => s.byteLen
  | .valCnt => s.valCnt
  | .symCnt => s.symCnt
  | .sigLen => s.sigLen
  | .rotCosLo => s.rotCosLo
  | .rotCosHi => s.rotCosHi
  | .rotSinLo => s.rotSinLo
  | .rotSinHi => s.rotSinHi

/-- The registers a write of which is refused while BUSY is 1 (70_reset_and_hazards.md R250; CMD: 60_exceptions.md R201). -/
def Reg.guarded : Reg → Bool
  | .id => false
  | .maxbps => false
  | .capByte => false
  | .capVal => false
  | .capSym => false
  | .ctrl => true
  | .status => false
  | .cmd => true
  | .byteLen => true
  | .valCnt => true
  | .symCnt => true
  | .sigLen => true
  | .rotCosLo => true
  | .rotCosHi => true
  | .rotSinLo => true
  | .rotSinHi => true

/-- The effect of an accepted write of `w` to a register (10_state.md R21 to R47): read-only registers keep their value, STATUS
clears what is written 1 (R40), CMD accepts a command (60_exceptions.md R200). -/
def State.writeReg (s : State) (r : Reg) (w : Word) : State :=
  match r with
  | .id => s
  | .maxbps => s
  | .capByte => s
  | .capVal => s
  | .capSym => s
  | .ctrl => { s with ctrl := Ctrl.ofWord w }
  | .status => { s with status := s.status.writeOneToClear w }
  | .cmd => s.accept w
  | .byteLen => { s with byteLen := w }
  | .valCnt => { s with valCnt := w }
  | .symCnt => { s with symCnt := w }
  | .sigLen => { s with sigLen := w }
  | .rotCosLo => { s with rotCosLo := w }
  | .rotCosHi => { s with rotCosHi := w }
  | .rotSinLo => { s with rotSinLo := w }
  | .rotSinHi => { s with rotSinHi := w }

/-! ### Transactions -/

/-- What the host gets when a transaction has no effect: the response, and data 0 (20_memory.md R62). -/
def failedReply (resp : Resp) : Reply := { resp := resp, data := 0#32 }

/-- `MemRead(addr, n)`: the state after it and what the host gets (20_memory.md R62 to R65, R69;
70_reset_and_hazards.md R251). -/
def State.busRead (s : State) (addr : Word) (size : Size) : State × Reply :=
  match route s.params addr size with
  | .unmapped => (s, failedReply .decerr)
  | .illegal => (s, failedReply .slverr)
  | .register offset =>
    match Reg.ofOffset offset with
    | some r => (s, { resp := .okay, data := s.readReg r })
    | none => (s, { resp := .okay, data := 0#32 })
  | .buffer =>
    if s.status.busy then (s.refuse, failedReply .slverr)
    else (s, { resp := .okay, data := BitVec.ofNat 32 (leValue (s.readBytes addr.toNat size.bytes)) })

/-- `MemWrite(addr, n, v)`: the state after it and what the host gets (20_memory.md R62 to R65, R69;
70_reset_and_hazards.md R250, R251). -/
def State.busWrite (s : State) (addr : Word) (size : Size) (v : Word) : State × Reply :=
  match route s.params addr size with
  | .unmapped => (s, failedReply .decerr)
  | .illegal => (s, failedReply .slverr)
  | .register offset =>
    match Reg.ofOffset offset with
    | some r =>
      if r.guarded && s.status.busy then (s.refuse, failedReply .slverr)
      else (s.writeReg r v, { resp := .okay, data := 0#32 })
    | none => (s, { resp := .okay, data := 0#32 })
  | .buffer =>
    if s.status.busy then (s.refuse, failedReply .slverr)
    else (s.writeBytes addr.toNat (leBytes size.bytes v), { resp := .okay, data := 0#32 })

/-- A host transaction (20_memory.md R62). -/
def State.transact (s : State) (t : Txn) : State × Reply :=
  match t with
  | .read addr size => s.busRead addr size
  | .write addr size v => s.busWrite addr size v

/-- The state after a host transaction, with what the host got recorded in `reply` (log 5). -/
def State.hostStep (s : State) (t : Txn) : State := { (s.transact t).1 with reply := some (s.transact t).2 }

end Sys2Proof.Machine
end

