-- ==== Sys2Proof/Machine/Control.lean ====
section
/-! DEFINITION. NOP (44_control.md). -/

namespace Sys2Proof.Machine

/-- NOP: the completion bits and nothing else (R190). -/
def execNop (_n : Nat) (s : State) : Host.Outcome State Fault Refusal := .next (s.complete (.ok s))

end Sys2Proof.Machine
end

