-- ==== Sys2Proof/Machine/Operands.lean ====
section
/-! DEFINITION. The operands of the commands: the BPS checks (60_exceptions.md R205), bit streams (00_scope.md R9), counts
(40_bitpacker.md R112), the rotation constants (41_constellation.md R133). -/

namespace Sys2Proof.Machine

/-- `ceil(a / b)` for `b > 0` (00_scope.md R10). -/
def ceilDiv (a b : Nat) : Nat := (a + b - 1) / b

/-- BPS is 0 or above MAX_BPS: InvalidParameter on every command that uses it (60_exceptions.md R205,
40_bitpacker.md R111, R114). -/
def badBps (s : State) (n : Nat) : Bool := n == 0 || decide (s.params.maxBps < n)

/-- The BPS check of MAP and MOD (41_constellation.md R146): odd values need LEGACY_ODD. -/
def badMapBps (s : State) (n : Nat) : Bool := badBps s n || (n % 2 == 1 && !s.ctrl.legacyOdd)

/-- The BPS check of SLICE and DEMOD (41_constellation.md R146): besides, odd values have no clamp. -/
def badSliceBps (s : State) (n : Nat) : Bool := badMapBps s n || (n % 2 == 1 && s.ctrl.clamp)

/-- `StreamBit(B, L, i)` with `L` the length of `bs`: the most significant bit of a byte first, 0 beyond the end
(00_scope.md R9). -/
def streamBit (bs : List Byte) (i : Nat) : Bool :=
  match bs[i / 8]? with
  | some b => b.getLsbD (7 - i % 8)
  | none => false

/-- The number the bits `bit 0 .. bit (n-1)` write, the first most significant (40_bitpacker.md R111). -/
def bitsValue (n : Nat) (bit : Nat → Bool) : Nat :=
  (List.range n).foldl (fun v j => 2 * v + (bit j).toNat) 0

/-- The number of values PACK makes of `len` bytes (40_bitpacker.md R111, R112). -/
def packCount (n len : Nat) : Nat := ceilDiv (8 * len) n

/-- The number of bytes UNPACK makes of `c` values (40_bitpacker.md R114). -/
def unpackCount (n c : Nat) : Nat := ceilDiv (c * n) 8

/-- Value `k` that PACK makes of the bytes `bs` (40_bitpacker.md R111). -/
def packValue (n : Nat) (bs : List Byte) (k : Nat) : Word :=
  BitVec.ofNat 32 (bitsValue n fun j => streamBit bs (k * n + j))

/-- `bit(i)` of UNPACK: the bits `[n-1:0]` of each word, most significant first, 0 beyond the last
(40_bitpacker.md R113, R114). -/
def unpackBit (n : Nat) (ws : List Word) (i : Nat) : Bool :=
  match ws[i / n]? with
  | some w => w.getLsbD (n - 1 - i % n)
  | none => false

/-- Byte `m` that UNPACK makes of the words `ws` (40_bitpacker.md R114). -/
def unpackByte (n : Nat) (ws : List Word) (m : Nat) : Byte :=
  BitVec.ofNat 8 (bitsValue 8 fun j => unpackBit n ws (8 * m + j))

/-- `C = F64({ROT_COS_HI, ROT_COS_LO})` (41_constellation.md R133). -/
def State.rotCos (s : State) : F64 := s.rotCosHi ++ s.rotCosLo

/-- `S = F64({ROT_SIN_HI, ROT_SIN_LO})` (41_constellation.md R133). -/
def State.rotSin (s : State) : F64 := s.rotSinHi ++ s.rotSinLo

end Sys2Proof.Machine
end

