-- ==== Sys2Proof/Machine/BitPacker.lean ====
section
/-! DEFINITION. PACK and UNPACK (40_bitpacker.md). -/

namespace Sys2Proof.Machine

/-- `PackBody(n, L, cnt)`: the loop and the VAL_CNT write of R111 (42_pipeline.md R170). -/
def packBody (n len : Nat) (s : State) : State :=
  let bs := (List.range len).map s.byteElem
  { s.setValElems ((List.range (packCount n len)).map (packValue n bs)) with
    valCnt := BitVec.ofNat 32 (packCount n len) }

/-- PACK's checks, in the order of R111 and 60_exceptions.md R203, then its writes. -/
def packCommand (n : Nat) (s : State) : Except ErrCode State :=
  if badBps s n then .error .invalidParameter
  else if s.params.byteCap < s.byteLen.toNat then .error .capacityExceeded
  else if s.params.valCap < packCount n s.byteLen.toNat then .error .capacityExceeded
  else .ok (packBody n s.byteLen.toNat s)

/-- PACK (R111). -/
def execPack (n : Nat) (s : State) : Host.Outcome State Fault Refusal := .next (s.complete (packCommand n s))

/-- `UnpackBody(n, c, L)`: the loops and the BYTE_LEN write of R114 (42_pipeline.md R171). -/
def unpackBody (n c : Nat) (s : State) : State :=
  let ws := (List.range c).map s.valElem
  { s.setByteElems ((List.range (unpackCount n c)).map (unpackByte n ws)) with
    byteLen := BitVec.ofNat 32 (unpackCount n c) }

/-- UNPACK's checks, in the order of R114 and 60_exceptions.md R203, then its writes. -/
def unpackCommand (n : Nat) (s : State) : Except ErrCode State :=
  if badBps s n then .error .invalidParameter
  else if s.params.valCap < s.valCnt.toNat then .error .capacityExceeded
  else if s.params.byteCap < unpackCount n s.valCnt.toNat then .error .capacityExceeded
  else .ok (unpackBody n s.valCnt.toNat s)

/-- UNPACK (R114). -/
def execUnpack (n : Nat) (s : State) : Host.Outcome State Fault Refusal := .next (s.complete (unpackCommand n s))

end Sys2Proof.Machine
end

