-- ==== Sys2Proof/Machine/Float.lean ====
section
/-! DEFINITION. IEEE-754 binary64 arithmetic as 00_scope.md R11 uses it: each operation rounds its exact result once, to
nearest with ties to even; subnormals are kept; no fused operation; no flag. Every finite binary64 value is a whole number
of UNITS of 2^-1074, the least positive one, so exact values are integers here. -/

namespace Sys2Proof.F64

/-- The sign bit. -/
def sign (x : F64) : Bool := x.getLsbD 63

/-- The biased exponent, bits 62:52. -/
def expField (x : F64) : Nat := (x.extractLsb' 52 11).toNat

/-- The fraction, bits 51:0. -/
def fracField (x : F64) : Nat := (x.extractLsb' 0 52).toNat

/-- Not ±Inf and not NaN (R11). -/
def isFinite (x : F64) : Bool := expField x != 0x7FF

def isNaN (x : F64) : Bool := expField x == 0x7FF && fracField x != 0

def isInf (x : F64) : Bool := expField x == 0x7FF && fracField x == 0

/-- The magnitude of a finite value, in units of 2^-1074. -/
def units (x : F64) : Nat :=
  if expField x = 0 then fracField x else (2 ^ 52 + fracField x) * 2 ^ (expField x - 1)

/-- `Real(x) · 2^1074` of a finite value (R11). -/
def toInt (x : F64) : Int := if sign x then -(units x : Int) else (units x : Int)

/-- The canonical quiet NaN (41_constellation.md R143). -/
def canonicalNaN : F64 := 0x7FF8000000000000#64

/-- ±Inf. -/
def infinity (neg : Bool) : F64 := if neg then 0xFFF0000000000000#64 else 0x7FF0000000000000#64

/-- `x` with its sign reversed. -/
def negate (x : F64) : F64 := x ^^^ 0x8000000000000000#64

/-- `m / 2^sh` rounded to the nearest integer, ties to the even one. -/
def roundShift (m sh : Nat) : Nat :=
  let q := m / 2 ^ sh
  let r := m % 2 ^ sh
  if 2 ^ sh < 2 * r ∨ (2 * r = 2 ^ sh ∧ q % 2 = 1) then q + 1 else q

/-- The bit position at which `m`, a number of units of 2^-(1074+d), is rounded: 53 significant bits, or the place of one
unit of 2^-1074 where fewer are left (subnormals). -/
def roundPlace (m d : Nat) : Nat := max d (m.log2 - 52)

/-- The binary64 value nearest to ±`m`·2^-(1074+d), ties to even (R11); a magnitude that rounds to 2^1024 or more is ±Inf.
The exponent field and the rounded significand add up to the pattern: a significand that rounds up to 2^53 carries into the
exponent. -/
def round (neg : Bool) (m d : Nat) : F64 :=
  let mag := (roundPlace m d - d) * 2 ^ 52 + roundShift m (roundPlace m d)
  BitVec.ofNat 64 ((if neg then 2 ^ 63 else 0) + min mag (0x7FF * 2 ^ 52))

/-- `toF64(t/2)`: half-integers as binary64, exact while `|t| < 2^53` (R11, 41_constellation.md R132). -/
def ofHalves (t : Int) : F64 := round (decide (t < 0)) (t.natAbs * 2 ^ 1073) 0

/-- `fmul(x, y)` (R11). The NaN it gives is the canonical one; no rule lets another be seen (log 6). -/
def fmul (x y : F64) : F64 :=
  if isNaN x || isNaN y then canonicalNaN
  else if isInf x || isInf y then
    if units x = 0 ∨ units y = 0 then canonicalNaN else infinity (sign x != sign y)
  else round (sign x != sign y) (units x * units y) 1074

/-- `fadd(x, y)` (R11). An exact sum of 0 is +0, unless both operands are negative (log 10). -/
def fadd (x y : F64) : F64 :=
  if isNaN x || isNaN y then canonicalNaN
  else if isInf x then (if isInf y && sign x != sign y then canonicalNaN else x)
  else if isInf y then y
  else
    let sum := toInt x + toInt y
    if sum = 0 then round (sign x && sign y) 0 0 else round (decide (sum < 0)) sum.natAbs 0

/-- `fsub(x, y)` (R11): the sum of `x` and `y` with its sign reversed. -/
def fsub (x y : F64) : F64 := fadd x (negate y)

/-- `RoundHalfAway(t)` of a finite `t` (R11, 41_constellation.md R135): the nearest integer, ties to the one of larger
magnitude. -/
def roundHalfAway (t : F64) : Int :=
  let q : Int := ((units t + 2 ^ 1073) / 2 ^ 1074 : Nat)
  if sign t then -q else q

/-- `Canon(x)` (41_constellation.md R143, R144). -/
def canon (x : F64) : F64 := if isNaN x then canonicalNaN else x

/-- 0.5 -/
def half : F64 := 0x3FE0000000000000#64

end Sys2Proof.F64
end

