-- ==== Sys2Proof/Machine/Constellation.lean ====
section
/-! DEFINITION. MAP and SLICE (41_constellation.md). -/

namespace Sys2Proof.Machine

/-! ### Geometry -/

/-- The largest `r` with `r·r ≤ m` that has at most `k` bits above those of `acc`, found from the top bit down. -/
def isqrtFrom (m : Nat) : Nat → Nat → Nat
  | 0, acc => acc
  | k + 1, acc => isqrtFrom m k (if (acc + 2 ^ k) * (acc + 2 ^ k) ≤ m then acc + 2 ^ k else acc)

/-- `isqrt(m)`, the largest integer `r` with `r·r ≤ m` (00_scope.md R10). -/
def isqrt (m : Nat) : Nat := isqrtFrom m (m.log2 / 2 + 1) 0

/-- `s = isqrt(2^n)`, the side of the lattice, for even `n` (R130) and odd `n` (R131). The half-width is `h = s/2`, an exact
rational; it appears below only doubled or as `F64.ofHalves`. -/
def side (n : Nat) : Nat := isqrt (2 ^ n)

/-- `toF64(idx - h + 1/2)` (R132), with twice the value computed as an integer. -/
def latticeCoord (sd idx : Nat) : F64 := F64.ofHalves (2 * (idx : Int) - (sd : Int) + 1)

/-! ### MAP -/

/-- The forward rotation of `(re0, im0)` by `(C, S)` (R134), NaNs made canonical (R143). -/
def rotate (c s re0 im0 : F64) : F64 × F64 :=
  (F64.canon (F64.fsub (F64.fmul re0 c) (F64.fmul im0 s)), F64.canon (F64.fadd (F64.fmul re0 s) (F64.fmul im0 c)))

/-- The record MAP makes of the symbol value `v` (R132, R134, R143, R144). -/
def mapPoint (c s : F64) (sd v : Nat) : F64 × F64 := rotate c s (latticeCoord sd (v % sd)) (latticeCoord sd (v / sd))

/-- The VALUE field of a VAL word, all 16 bits (10_state.md R51, R144). -/
def valueField (w : Word) : Nat := (w.extractLsb' 0 16).toNat

/-- `MapBody(n, s, h, cnt)`: the loop and the SYM_CNT write of R144 (42_pipeline.md R170). -/
def mapBody (n c : Nat) (s : State) : State :=
  { s.setSymElems ((List.range c).map fun k => mapPoint s.rotCos s.rotSin (side n) (valueField (s.valElem k))) with
    symCnt := BitVec.ofNat 32 c }

/-- MAP's checks, in the order of R144 and 60_exceptions.md R203, then its writes. -/
def mapCommand (n : Nat) (s : State) : Except ErrCode State :=
  if badMapBps s n then .error .invalidParameter
  else if s.params.valCap < s.valCnt.toNat then .error .capacityExceeded
  else if s.params.symCap < s.valCnt.toNat then .error .capacityExceeded
  else .ok (mapBody n s.valCnt.toNat s)

/-- MAP (R144). -/
def execMap (n : Nat) (s : State) : Host.Outcome State Fault Refusal := .next (s.complete (mapCommand n s))

/-! ### SLICE -/

/-- The inverse rotation of the point `(X, Y)` (R136). -/
def unrotate (c s x y : F64) : F64 × F64 :=
  (F64.fadd (F64.fmul x c) (F64.fmul y s), F64.fsub (F64.fmul y c) (F64.fmul x s))

/-- The index argument of one coordinate, `fsub(fadd(x, toF64(h)), 0.5)` (R137). -/
def indexArg (sd : Nat) (x : F64) : F64 := F64.fsub (F64.fadd x (F64.ofHalves (sd : Int))) F64.half

/-- What the slicer decides of one point (R138 to R142). -/
structure SliceResult where
  /-- `val`, below `2^n` -/
  val : Nat
  oor : Bool
  nf : Bool
deriving DecidableEq, Repr

/-- The out-of-lattice test of the rounded indices (R138). -/
def outOfLattice (n : Nat) (r i : Int) : Bool :=
  decide (r < 0) || decide ((side n : Int) ≤ r) || decide (i < 0) || decide ((2 ^ n : Int) ≤ i * side n + r)

/-- `clamp(x, 0, s-1)` (R140). -/
def clampIndex (sd : Nat) (x : Int) : Int := min (max x 0) ((sd : Int) - 1)

/-- The symbol value of the rounded indices: the wrap policy R139 or the clamp policy R140. -/
def sliceValue (clamp : Bool) (n : Nat) (r i : Int) : Nat :=
  if clamp then (clampIndex (side n) i * side n + clampIndex (side n) r).toNat
  else ((i * side n + r) % (2 ^ n : Int)).toNat

/-- The decision on the index arguments: non-finite (R141), or the rounded indices' value and test (R138). -/
def decideSymbol (clamp : Bool) (n : Nat) (tr ti : F64) : SliceResult :=
  if F64.isFinite tr && F64.isFinite ti then
    { val := sliceValue clamp n (F64.roundHalfAway tr) (F64.roundHalfAway ti)
      oor := outOfLattice n (F64.roundHalfAway tr) (F64.roundHalfAway ti)
      nf := false }
  else { val := 0, oor := false, nf := true }

/-- The slicer's decision on the point `(X, Y)` (R145). -/
def slicePoint (c s : F64) (clamp : Bool) (n : Nat) (x y : F64) : SliceResult :=
  let p := unrotate c s x y
  decideSymbol clamp n (indexArg (side n) p.1) (indexArg (side n) p.2)

/-- The slicer's output word: NF, OOR, fourteen zeros, VALUE (R142). -/
def SliceResult.word (r : SliceResult) : Word :=
  BitVec.ofBool r.nf ++ BitVec.ofBool r.oor ++ 0#14 ++ BitVec.ofNat 16 r.val

/-- The decision on record `k` of the state (R145). -/
def State.sliceElem (s : State) (n k : Nat) : SliceResult :=
  slicePoint s.rotCos s.rotSin s.ctrl.clamp n (s.reElem k) (s.imElem k)

/-- `SliceBody(n, s, h, c)`: the loop, the VAL_CNT write and the flag writes of R145 (42_pipeline.md R171). -/
def sliceBody (n c : Nat) (s : State) : State :=
  let rs := (List.range c).map (s.sliceElem n)
  { s.setValElems (rs.map SliceResult.word) with
    valCnt := BitVec.ofNat 32 c
    status := s.status.sliced (rs.any SliceResult.oor) (rs.any SliceResult.nf) }

/-- SLICE's checks, in the order of R145 and 60_exceptions.md R203, then its writes. -/
def sliceCommand (n : Nat) (s : State) : Except ErrCode State :=
  if badSliceBps s n then .error .invalidParameter
  else if s.params.symCap < s.symCnt.toNat then .error .capacityExceeded
  else if s.params.valCap < s.symCnt.toNat then .error .capacityExceeded
  else .ok (sliceBody n s.symCnt.toNat s)

/-- SLICE (R145). -/
def execSlice (n : Nat) (s : State) : Host.Outcome State Fault Refusal := .next (s.complete (sliceCommand n s))

end Sys2Proof.Machine
end

