-- ==== Sys2Proof/Machine/Pipeline.lean ====
section
/-! DEFINITION. MOD and DEMOD (42_pipeline.md): every check before any write, then the bodies of the two commands each
stands for. -/

namespace Sys2Proof.Machine

/-- MOD's checks, in the order of R170 and 60_exceptions.md R203, then its writes. -/
def modCommand (n : Nat) (s : State) : Except ErrCode State :=
  if badMapBps s n then .error .invalidParameter
  else if s.params.byteCap < s.byteLen.toNat then .error .capacityExceeded
  else if s.params.valCap < packCount n s.byteLen.toNat then .error .capacityExceeded
  else if s.params.symCap < packCount n s.byteLen.toNat then .error .capacityExceeded
  else .ok (mapBody n (packCount n s.byteLen.toNat) (packBody n s.byteLen.toNat s))

/-- MOD (R170). -/
def execMod (n : Nat) (s : State) : Host.Outcome State Fault Refusal := .next (s.complete (modCommand n s))

/-- DEMOD's checks, in the order of R171 and 60_exceptions.md R203, then its writes. -/
def demodCommand (n : Nat) (s : State) : Except ErrCode State :=
  if badSliceBps s n then .error .invalidParameter
  else if s.params.symCap < s.symCnt.toNat then .error .capacityExceeded
  else if s.params.valCap < s.symCnt.toNat then .error .capacityExceeded
  else if s.params.byteCap < unpackCount n s.symCnt.toNat then .error .capacityExceeded
  else .ok (unpackBody n s.symCnt.toNat (sliceBody n s.symCnt.toNat s))

/-- DEMOD (R171). -/
def execDemod (n : Nat) (s : State) : Host.Outcome State Fault Refusal := .next (s.complete (demodCommand n s))

end Sys2Proof.Machine
end

