-- ==== Sys2Proof/Machine/Serializer.lean ====
section
/-! DEFINITION. SER and DESER (43_serializer.md): they relate SIG_LEN and SYM_CNT and move no data (R180). -/

namespace Sys2Proof.Machine

/-- SER's check and write (R182). -/
def serCommand (s : State) : Except ErrCode State :=
  if s.params.symCap < s.symCnt.toNat then .error .capacityExceeded
  else .ok { s with sigLen := BitVec.ofNat 32 (16 * s.symCnt.toNat) }

/-- SER (R182); BPS is ignored (30_encoding.md R96). -/
def execSer (_n : Nat) (s : State) : Host.Outcome State Fault Refusal := .next (s.complete (serCommand s))

/-- DESER's checks, in the order of R183 and 60_exceptions.md R203, and its writes. -/
def deserCommand (s : State) : Except ErrCode State :=
  if 16 * s.params.symCap < s.sigLen.toNat then .error .capacityExceeded
  else if s.sigLen.toNat % 16 ≠ 0 then
    if s.ctrl.trunc then
      .ok { s with symCnt := BitVec.ofNat 32 (s.sigLen.toNat / 16), status := s.status.truncated }
    else .error .corruptSignal
  else .ok { s with symCnt := BitVec.ofNat 32 (s.sigLen.toNat / 16) }

/-- DESER (R183); BPS is ignored (30_encoding.md R96). -/
def execDeser (_n : Nat) (s : State) : Host.Outcome State Fault Refusal := .next (s.complete (deserCommand s))

end Sys2Proof.Machine
end

