-- ==== Sys2Proof/Machine/Dispatch.lean ====
section
/-! DEFINITION. `Execute(w)` of a decoded command, with its completion (60_exceptions.md R202, R206, R207). -/

namespace Sys2Proof.Machine

def exec (i : Instr) (s : State) : Host.Outcome State Fault Refusal :=
  match i with
  | .nop n => Sys2Proof.Machine.execNop n s
  | .pack n => Sys2Proof.Machine.execPack n s
  | .map n => Sys2Proof.Machine.execMap n s
  | .slice n => Sys2Proof.Machine.execSlice n s
  | .unpack n => Sys2Proof.Machine.execUnpack n s
  | .mod n => Sys2Proof.Machine.execMod n s
  | .demod n => Sys2Proof.Machine.execDemod n s
  | .ser n => Sys2Proof.Machine.execSer n s
  | .deser n => Sys2Proof.Machine.execDeser n s

end Sys2Proof.Machine
end

