-- ==== Sys2Proof/Machine/Agents.lean ====
section
/-! DEFINITION. The agents of 00_scope.md R13 taking turns: the host, the engine, the reset input. `State.script` says
who moves next; nothing in the block does (70_reset_and_hazards.md R255, logs 1 and 2). -/

namespace Sys2Proof.Machine

/-- Address of STATUS (10_state.md R20). -/
def statusAddr : Word := 0x00000024#32

/-- The engine's completion of the pending command `REG[CMD]` (60_exceptions.md R202): a word that is no command fails with
UnsupportedMode, the first of all checks (R203, R208). -/
def engineStep (s : State) : Host.Outcome State Fault Refusal :=
  match decode s.cmd with
  | .ok i => exec i s
  | .error _ => .next (s.complete (.error .unsupportedMode))

/-- The engine's turn: it has a step exactly when BUSY = 1 (60_exceptions.md R202); otherwise nothing happens
(R219, log 4). -/
def engineTurn (s : State) : Host.Outcome State Fault Refusal :=
  if s.status.busy then engineStep s else .next s

/-- One step: the first event of the script; with an empty script, the engine's turn. A `wait` of the host ends when
BUSY = 0, with the read of STATUS that saw it; until then the engine moves (log 2). -/
def advance (s : State) : Host.Outcome State Fault Refusal :=
  match s.script with
  | [] => engineTurn s
  | .bus t :: rest => .next (({ s with script := rest } : State).hostStep t)
  | .wait :: rest =>
    if s.status.busy then engineStep s
    else .next (({ s with script := rest } : State).hostStep (.read statusAddr .four))
  | .engine :: rest => engineTurn { s with script := rest }
  | .reset :: rest => .next ({ s with script := rest } : State).resetInput

/-- The command word of the table's word `w` of `nbits` bits (log 1). -/
def tableWord (nbits w : Nat) : Word := BitVec.ofNat 32 (w % 2 ^ nbits)

end Sys2Proof.Machine
end

