-- ==== Sys2Proof/Machine/HostAsm.lean ====
section
/-! DEFINITION. The host assembly of 30_encoding.md (R99, R100): lines, pseudo-instructions and their expansion into the
events of `State.script`; the host's duties for signal files (43_serializer.md R185). -/

namespace Sys2Proof.Machine

/-- Host address of a register: the window's base is 0 (20_memory.md R61, 10_state.md R20). -/
def Reg.addr : Reg → Word
  | .id => 0x000#32
  | .maxbps => 0x004#32
  | .capByte => 0x008#32
  | .capVal => 0x00C#32
  | .capSym => 0x010#32
  | .ctrl => 0x020#32
  | .status => 0x024#32
  | .cmd => 0x028#32
  | .byteLen => 0x030#32
  | .valCnt => 0x034#32
  | .symCnt => 0x038#32
  | .sigLen => 0x03C#32
  | .rotCosLo => 0x040#32
  | .rotCosHi => 0x044#32
  | .rotSinLo => 0x048#32
  | .rotSinHi => 0x04C#32

/-- `BYTE+i` (R99). -/
def byteAddr (i : Nat) : Word := BitVec.ofNat 32 (Config.byteBase + i)

/-- `VAL+j`, in bytes (R99). -/
def valAddr (j : Nat) : Word := BitVec.ofNat 32 (Config.valBase + j)

/-- `SYM+j`, in bytes (R99). -/
def symAddr (j : Nat) : Word := BitVec.ofNat 32 (Config.symBase + j)

/-- A line of a host program (R99, R100). -/
inductive AsmLine where
  /-- `wr8`, `wr16`, `wr32` -/
  | wr (size : Size) (addr v : Word)
  /-- `rd8`, `rd16`, `rd32` -/
  | rd (size : Size) (addr : Word)
  /-- `cmd MNEMONIC` and `cmd MNEMONIC, n` -/
  | cmd (i : Instr)
  /-- `wait` -/
  | wait
  /-- `clr` -/
  | clr
  /-- `wr64 ADDR, V` -/
  | wr64 (addr : Word) (v : F64)
  /-- `setrot C, S` -/
  | setrot (c s : F64)
deriving DecidableEq, Repr

/-- `wr32 ADDR, V` as an event. -/
def wr32 (addr v : Word) : Event := .bus (.write addr .four v)

/-- The expansion of a line (R99, R100). -/
def AsmLine.expand : AsmLine → List Event
  | .wr size addr v => [.bus (.write addr size v)]
  | .rd size addr => [.bus (.read addr size)]
  | .cmd i => [wr32 Reg.cmd.addr (encode i)]
  | .wait => [.wait]
  | .clr => [wr32 Reg.status.addr 0x0000007E#32]
  | .wr64 addr v => [wr32 addr (v.extractLsb' 0 32), wr32 (addr + 4) (v.extractLsb' 32 32)]
  | .setrot c s =>
    [wr32 Reg.rotCosLo.addr (c.extractLsb' 0 32), wr32 Reg.rotCosHi.addr (c.extractLsb' 32 32),
     wr32 Reg.rotSinLo.addr (s.extractLsb' 0 32), wr32 Reg.rotSinHi.addr (s.extractLsb' 32 32)]

/-- A host program as events, one line after the other. -/
def assemble (lines : List AsmLine) : List Event := lines.flatMap AsmLine.expand

/-- Loading a signal file (43_serializer.md R185): its bytes in file order, its size, DESER. -/
def loadSignalFile (file : List Byte) : List AsmLine :=
  ((List.range file.length).map fun j => .wr .one (symAddr j) ((file.getD j 0#8).zeroExtend 32)) ++
    [.wr .four Reg.sigLen.addr (BitVec.ofNat 32 file.length), .cmd (.deser 0)]

/-- Storing a signal of `len` bytes (43_serializer.md R185): SER, then reading the bytes. -/
def storeSignalFile (len : Nat) : List AsmLine :=
  [.cmd (.ser 0), .wait] ++ (List.range len).map fun j => .rd .one (symAddr j)

end Sys2Proof.Machine
end

