-- ==== Sys2Proof/Safety.lean ====
section
/-! DEFINITION. What the claims call a legal state, and a run that never stops. -/

namespace Sys2Proof.Machine

/-- Every listed byte of memory is inside a buffer window (20_memory.md R61). -/
abbrev State.memInBuffers (s : State) : Prop := ∀ c ∈ s.mem, bufferAddr s.params c.1 = true

/-- A pending command has neither DONE nor ERR set (10_state.md R33, R34; 60_exceptions.md R200). -/
abbrev Status.pendingClear (s : Status) : Prop := s.busy = true → s.done = false ∧ s.err = false

/-- ERRCODE is one of the codes the block writes, and it is 0 exactly when ERR is 0 (10_state.md R39, R40;
60_exceptions.md R204 to R207). -/
abbrev Status.codeLegal (s : Status) : Prop := s.errcode.toNat ≤ 4 ∧ (s.err = false ↔ s.errcode = 0#4)

/-- The legal states: legal parameters (00_scope.md R6), memory in canonical form and inside the buffers, a legal
STATUS. -/
abbrev State.Inv (s : State) : Prop :=
  s.params.Legal ∧ s.mem.wf ∧ s.memInBuffers ∧ s.status.pendingClear ∧ s.status.codeLegal

/-- A run of any length from `s` meets no fault and no refusal. -/
def State.NeverStops (s : State) : Prop := ∀ k, ∃ t, Host.Core.run Sys2Proof.core k s = .next t

end Sys2Proof.Machine
end

