-- ==== Sys2Proof/Certificates/Slice0/Obligations.lean ====
section
/-! DEFINITION. The statements for the provers. A frame is written `t = { s with … }`: every field not named there is the
same, the model's own fields included; the bytes of memory are then compared address by address through
`State.readByte`. -/

open Sys2Proof Sys2Proof.Machine

/-! ### The command word -/

/-- R90, R91, R94: no bit of a command's encoding is lost. -/
def Obligations.DecodeOfEncode : Prop := ∀ i : Instr, i.WellFormed → decode (encode i) = .ok i

/-- R90, R94, R98: each word has at most one meaning. -/
def Obligations.EncodeOfDecode : Prop :=
  ∀ (w : Word) (i : Instr), decode w = .ok i → i.WellFormed ∧ encode i = w

/-- R97: the example words decode to the commands they stand for. -/
def Obligations.ExampleWordsDecode : Prop :=
  decode 0x00000205#32 = .ok (.mod 2) ∧ decode 0x00000406#32 = .ok (.demod 4) ∧ decode 0x00000301#32 = .ok (.pack 3) ∧
  decode 0x00000007#32 = .ok (.ser 0) ∧ decode 0x00000008#32 = .ok (.deser 0) ∧ decode 0x00000000#32 = .ok (.nop 0) ∧
  decode 0x00004005#32 = .error .reservedBits ∧ decode 0x00000009#32 = .error .reservedOpcode

/-- R93, R95, R208: a pending word with a reserved bit or a reserved opcode fails with UnsupportedMode and does nothing
else: with an empty script, at the engine's event, and while the host waits (whose turn it is: the model's choice, logs 1 and 2). -/
def Obligations.UnsupportedWordFails : Prop :=
  ∀ s t : State, s.status.busy = true →
    (s.cmd.extractLsb' 14 18 ≠ 0#18 ∨ 9 ≤ (s.cmd.extractLsb' 0 8).toNat) →
    t = { s with status := { s.status with err := true, errcode := 3#4, busy := false, done := true } } →
    (s.script = [] → step s = .next t) ∧
    (∀ rest, s.script = .engine :: rest → step s = .next { t with script := rest }) ∧
    (∀ rest, s.script = .wait :: rest → step s = .next t)

/-! ### The step -/

/-- R202: a pending word that decodes to `i` is run by `exec i`, with an empty script, at the engine's event, and while
the host waits (whose turn it is: the model's choice, logs 1 and 2). -/
def Obligations.StepRunsDecodedCommand : Prop :=
  ∀ (s : State) (i : Instr), s.status.busy = true → decode s.cmd = .ok i →
    (s.script = [] → step s = exec i s) ∧
    (∀ rest, s.script = .engine :: rest → step s = exec i { s with script := rest }) ∧
    (∀ rest, s.script = .wait :: rest → step s = exec i s)

/-- R200, R202: the table's word of a well-formed command, placed for the next step, is what that step runs (the placing is
the model's, log 1). -/
def Obligations.PlacedWordRuns : Prop :=
  ∀ (s : State) (i : Instr), i.WellFormed →
    step (s.withFetchWord 32 (encode i).toNat) =
      exec i { s with cmd := encode i, status := { s.status with busy := true, done := false, err := false, errcode := 0#4 } }

/-- The model's turn-taking (logs 1 to 5): the step takes the event at the head of the script. A host transaction is performed and
its reply recorded (log 5); a host's wait that finds BUSY = 0 ends with a read of STATUS (log 2); an engine's turn with nothing
pending changes only the script, and with nothing to come either the state stays (log 4); a reset makes the reset state with the
buffer bytes drawn anew, counted by `epoch` (log 3). With BUSY = 1 the engine's turn and the wait run the pending command:
`StepRunsDecodedCommand` and `UnsupportedWordFails`. -/
def Obligations.StepFollowsScript : Prop :=
  ∀ (s : State) (rest : List Event),
    (∀ t, s.script = .bus t :: rest →
      step s = .next { (({ s with script := rest } : State).transact t).1 with
        reply := some (({ s with script := rest } : State).transact t).2 }) ∧
    (s.script = .wait :: rest → s.status.busy = false →
      step s = .next { s with script := rest, reply := some (s.transact (.read 0x24#32 .four)).2 }) ∧
    (s.script = .engine :: rest → s.status.busy = false → step s = .next { s with script := rest }) ∧
    (s.script = .reset :: rest →
      step s = .next { State.reset with params := s.params, epoch := s.epoch + 1, script := rest }) ∧
    (s.script = [] → s.status.busy = false → step s = .next s)

/-- 60_exceptions.md R202, R206, R207: every command, on every state, completes: BUSY is 0 and DONE is 1 after it. If it failed,
nothing but four STATUS fields has changed; if not, ERRCODE is 0. -/
def Obligations.EveryCommandCompletes : Prop :=
  ∀ (i : Instr) (s : State), ∃ t, exec i s = .next t ∧ t.status.busy = false ∧ t.status.done = true ∧
    (t.status.err = true → ∃ e : ErrCode, t = { s with status :=
      { s.status with err := true, errcode := e.code, busy := false, done := true } }) ∧
    (t.status.err = false → t.status.errcode = 0#4)

/-- R62, R206: the block never stops: no run of any length, under any script (log 1), meets a fault or a refusal. -/
def Obligations.NoRunStops : Prop := ∀ s : State, s.NeverStops

/-- R255 in the model's form (log 2): a pending command is gone, completed or discarded by reset, after at most one step more
than there are events to come. -/
def Obligations.PendingCommandEnds : Prop :=
  ∀ s : State, s.status.busy = true →
    ∃ k t, k ≤ s.script.length + 1 ∧ Host.Core.run Sys2Proof.core k s = .next t ∧ t.status.busy = false

/-- R100, R200, R202: `cmd` and `wait` of a host program: the word is accepted with OKAY and the next step runs the
command (lines as events of the script: the model's choice, logs 1 and 2). -/
def Obligations.CmdThenWaitRunsCommand : Prop :=
  ∀ (s : State) (i : Instr) (rest : List Event), s.status.busy = false → i.WellFormed →
    s.script = assemble [.cmd i, .wait] ++ rest →
    ∃ u, step s = .next u ∧ step u = exec i u ∧
      u = { s with
        cmd := encode i
        status := { s.status with busy := true, done := false, err := false, errcode := 0#4 }
        reply := some { resp := .okay, data := 0#32 }
        script := .wait :: rest }

/-! ### Invariants -/

/-- Every step keeps a legal state legal: the parameters' ranges (R6), the canonical form of memory and its place in the buffers
(R61), DONE and ERR clear while BUSY (R33, R34), ERRCODE among 0 to 4 and 0 exactly when ERR is (R39, R204). -/
def Obligations.StepKeepsLegalState : Prop := ∀ s t : State, s.Inv → step s = .next t → t.Inv

/-- The reset state is legal. -/
def Obligations.ResetStateIsLegal : Prop := State.reset.Inv

/-- R35 to R38: "Only a host write with bit 3 = 1, or reset, clears it", and the same of the other three sticky flags
(events: log 1). -/
def Obligations.StickyFlagsClearedOnlyByHostOrReset : Prop :=
  ∀ s t : State, step s = .next t →
    (s.status.ovr = true ∧ t.status.ovr = false ∨ s.status.truncSeen = true ∧ t.status.truncSeen = false ∨
      s.status.oorSeen = true ∧ t.status.oorSeen = false ∨ s.status.nfSeen = true ∧ t.status.nfSeen = false) →
    (∃ rest, s.script = .reset :: rest) ∨
    (∃ rest v, s.script = .bus (.write 0x00000024#32 .four v) :: rest ∧
      (s.status.ovr = true ∧ t.status.ovr = false → v.getLsbD 3 = true) ∧
      (s.status.truncSeen = true ∧ t.status.truncSeen = false → v.getLsbD 4 = true) ∧
      (s.status.oorSeen = true ∧ t.status.oorSeen = false → v.getLsbD 5 = true) ∧
      (s.status.nfSeen = true ∧ t.status.nfSeen = false → v.getLsbD 6 = true))

/-- R33, R214: DONE rises only when a pending command completes, in a step of any script (log 1). -/
def Obligations.DoneRisesOnlyAtCompletion : Prop :=
  ∀ s t : State, step s = .next t → s.status.done = false → t.status.done = true →
    s.status.busy = true ∧ t.status.busy = false

/-- R35: OVR rises only by a host access made while BUSY is 1 (a transaction event: log 1). -/
def Obligations.OvrRisesOnlyWhileBusy : Prop :=
  ∀ s t : State, step s = .next t → s.status.ovr = false → t.status.ovr = true →
    s.status.busy = true ∧ (∃ tx rest, s.script = .bus tx :: rest) ∧
      t.reply = some { resp := .slverr, data := 0#32 }

/-- R78, R202, R250, R251: while a command is pending no transaction changes anything the command reads or writes, nor the
command. -/
def Obligations.PendingCommandInputsAreStable : Prop :=
  ∀ (s : State) (tx : Txn), s.status.busy = true →
    (s.transact tx).1 = { s with status := (s.transact tx).1.status } ∧ (s.transact tx).1.status.busy = true

/-! ### Errors -/

/-- R205: the causes of InvalidParameter, every one; it is checked first (R203), so they decide alone. -/
def Obligations.InvalidParameterCauses : Prop :=
  ∀ (n : Nat) (s : State),
    (∃ t, exec (.pack n) s = .next t ∧ (t.status.errcode = 1#4 ↔ n = 0 ∨ s.params.maxBps < n)) ∧
    (∃ t, exec (.unpack n) s = .next t ∧ (t.status.errcode = 1#4 ↔ n = 0 ∨ s.params.maxBps < n)) ∧
    (∃ t, exec (.map n) s = .next t ∧ (t.status.errcode = 1#4 ↔
      n = 0 ∨ s.params.maxBps < n ∨ n % 2 = 1 ∧ s.ctrl.legacyOdd = false)) ∧
    (∃ t, exec (.mod n) s = .next t ∧ (t.status.errcode = 1#4 ↔
      n = 0 ∨ s.params.maxBps < n ∨ n % 2 = 1 ∧ s.ctrl.legacyOdd = false)) ∧
    (∃ t, exec (.slice n) s = .next t ∧ (t.status.errcode = 1#4 ↔
      n = 0 ∨ s.params.maxBps < n ∨ n % 2 = 1 ∧ (s.ctrl.legacyOdd = false ∨ s.ctrl.clamp = true))) ∧
    (∃ t, exec (.demod n) s = .next t ∧ (t.status.errcode = 1#4 ↔
      n = 0 ∨ s.params.maxBps < n ∨ n % 2 = 1 ∧ (s.ctrl.legacyOdd = false ∨ s.ctrl.clamp = true))) ∧
    (∃ t, exec (.nop n) s = .next t ∧ t.status.errcode ≠ 1#4) ∧
    (∃ t, exec (.ser n) s = .next t ∧ t.status.errcode ≠ 1#4) ∧
    (∃ t, exec (.deser n) s = .next t ∧ t.status.errcode ≠ 1#4)

/-- R209: the causes of CapacityExceeded on commands that pass their BPS check, which comes first (R203, R205);
`(a + b - 1) / b` is `ceil(a/b)`. -/
def Obligations.CapacityExceededCauses : Prop :=
  ∀ (n : Nat) (s : State),
    (1 ≤ n → n ≤ s.params.maxBps →
      (∃ t, exec (.pack n) s = .next t ∧ (t.status.errcode = 4#4 ↔ s.params.byteCap < s.byteLen.toNat ∨
        s.params.valCap < (8 * s.byteLen.toNat + n - 1) / n)) ∧
      (∃ t, exec (.unpack n) s = .next t ∧ (t.status.errcode = 4#4 ↔ s.params.valCap < s.valCnt.toNat ∨
        s.params.byteCap < (s.valCnt.toNat * n + 7) / 8))) ∧
    (1 ≤ n → n ≤ s.params.maxBps → (n % 2 = 0 ∨ s.ctrl.legacyOdd = true) →
      (∃ t, exec (.map n) s = .next t ∧ (t.status.errcode = 4#4 ↔ s.params.valCap < s.valCnt.toNat ∨
        s.params.symCap < s.valCnt.toNat)) ∧
      (∃ t, exec (.mod n) s = .next t ∧ (t.status.errcode = 4#4 ↔ s.params.byteCap < s.byteLen.toNat ∨
        s.params.valCap < (8 * s.byteLen.toNat + n - 1) / n ∨ s.params.symCap < (8 * s.byteLen.toNat + n - 1) / n))) ∧
    (1 ≤ n → n ≤ s.params.maxBps → (n % 2 = 0 ∨ s.ctrl.legacyOdd = true ∧ s.ctrl.clamp = false) →
      (∃ t, exec (.slice n) s = .next t ∧ (t.status.errcode = 4#4 ↔ s.params.symCap < s.symCnt.toNat ∨
        s.params.valCap < s.symCnt.toNat)) ∧
      (∃ t, exec (.demod n) s = .next t ∧ (t.status.errcode = 4#4 ↔ s.params.symCap < s.symCnt.toNat ∨
        s.params.valCap < s.symCnt.toNat ∨ s.params.byteCap < (s.symCnt.toNat * n + 7) / 8))) ∧
    (∃ t, exec (.ser n) s = .next t ∧ (t.status.errcode = 4#4 ↔ s.params.symCap < s.symCnt.toNat)) ∧
    (∃ t, exec (.deser n) s = .next t ∧ (t.status.errcode = 4#4 ↔ 16 * s.params.symCap < s.sigLen.toNat))

/-- R210: the cause of CorruptSignal; the capacity check comes first (R203), and no other command raises it. -/
def Obligations.CorruptSignalCause : Prop :=
  ∀ (i : Instr) (s : State), ∃ t, exec i s = .next t ∧
    (t.status.errcode = 2#4 ↔ (∃ n, i = .deser n) ∧ s.sigLen.toNat ≤ 16 * s.params.symCap ∧
      s.sigLen.toNat % 16 ≠ 0 ∧ s.ctrl.trunc = false)

/-! ### The commands -/

/-- R190: NOP completes with no effect, with any BPS. -/
def Obligations.NopCompletes : Prop :=
  ∀ (n : Nat) (s : State), exec (.nop n) s = .next { s with status :=
    { s.status with busy := false, done := true, err := false, errcode := 0#4 } }

/-- R111, R112: PACK. Bit `i` of value `k` is stream bit `k·n + (n-1-i)`, 0 beyond the end of the stream (R9); the bits from `n`
up are 0; VAL_CNT is the count; nothing else changes. -/
def Obligations.PackPacksTheStream : Prop :=
  ∀ (n : Nat) (s : State), s.params.Legal → 1 ≤ n → n ≤ s.params.maxBps → s.byteLen.toNat ≤ s.params.byteCap →
    (8 * s.byteLen.toNat + n - 1) / n ≤ s.params.valCap →
    ∃ t, exec (.pack n) s = .next t ∧
      t = { s with
        mem := t.mem, valCnt := t.valCnt
        status := { s.status with busy := false, done := true, err := false, errcode := 0#4 } } ∧
      t.valCnt.toNat = (8 * s.byteLen.toNat + n - 1) / n ∧
      (∀ k i, k < t.valCnt.toNat → (t.valElem k).getLsbD i =
        (decide (i < n) && decide (k * n + (n - 1 - i) < 8 * s.byteLen.toNat) &&
          (s.byteElem ((k * n + (n - 1 - i)) / 8)).getLsbD (7 - (k * n + (n - 1 - i)) % 8))) ∧
      (∀ a, (a < 0x100000 ∨ 0x100000 + 4 * t.valCnt.toNat ≤ a) → t.readByte a = s.readByte a)

/-- R113, R114: UNPACK. Bit `j` of the output (R9) is bit `n-1-(j mod n)` of word `j div n`, 0 beyond the last word; BYTE_LEN is the
count; nothing else changes. -/
def Obligations.UnpackExpandsTheWords : Prop :=
  ∀ (n : Nat) (s : State), s.params.Legal → 1 ≤ n → n ≤ s.params.maxBps → s.valCnt.toNat ≤ s.params.valCap →
    (s.valCnt.toNat * n + 7) / 8 ≤ s.params.byteCap →
    ∃ t, exec (.unpack n) s = .next t ∧
      t = { s with
        mem := t.mem, byteLen := t.byteLen
        status := { s.status with busy := false, done := true, err := false, errcode := 0#4 } } ∧
      t.byteLen.toNat = (s.valCnt.toNat * n + 7) / 8 ∧
      (∀ j, j < 8 * t.byteLen.toNat → (t.byteElem (j / 8)).getLsbD (7 - j % 8) =
        (decide (j < s.valCnt.toNat * n) && (s.valElem (j / n)).getLsbD (n - 1 - j % n))) ∧
      (∀ a, (a < 0x10000 ∨ 0x10000 + t.byteLen.toNat ≤ a) → t.readByte a = s.readByte a)

/-- R132, R134, R143, R144: MAP. Record `k` is the lattice point of the low 16 bits of word `k`, rotated; a NaN is stored as the
canonical one; SYM_CNT is the count; nothing else changes. -/
def Obligations.MapWritesRotatedPoints : Prop :=
  ∀ (n : Nat) (s : State), s.params.Legal → 1 ≤ n → n ≤ s.params.maxBps → (n % 2 = 0 ∨ s.ctrl.legacyOdd = true) →
    s.valCnt.toNat ≤ s.params.valCap → s.valCnt.toNat ≤ s.params.symCap →
    ∃ t, exec (.map n) s = .next t ∧
      t = { s with
        mem := t.mem, symCnt := s.valCnt
        status := { s.status with busy := false, done := true, err := false, errcode := 0#4 } } ∧
      (∀ k, k < s.valCnt.toNat → ∀ re0 im0 x y : F64,
        re0 = latticeCoord (side n) ((s.valElem k).toNat % 2 ^ 16 % side n) →
        im0 = latticeCoord (side n) ((s.valElem k).toNat % 2 ^ 16 / side n) →
        x = F64.fsub (F64.fmul re0 s.rotCos) (F64.fmul im0 s.rotSin) →
        y = F64.fadd (F64.fmul re0 s.rotSin) (F64.fmul im0 s.rotCos) →
        t.reElem k = (if F64.isNaN x then 0x7FF8000000000000#64 else x) ∧
        t.imElem k = (if F64.isNaN y then 0x7FF8000000000000#64 else y)) ∧
      (∀ a, (a < 0x1000000 ∨ 0x1000000 + 16 * s.valCnt.toNat ≤ a) → t.readByte a = s.readByte a)

/-- R136 to R142, R145: SLICE. The word of each record, the sticky flags, VAL_CNT; nothing else changes. -/
def Obligations.SliceDecidesSymbols : Prop :=
  ∀ (n : Nat) (s : State), s.params.Legal → 1 ≤ n → n ≤ s.params.maxBps →
    (n % 2 = 0 ∨ s.ctrl.legacyOdd = true ∧ s.ctrl.clamp = false) →
    s.symCnt.toNat ≤ s.params.symCap → s.symCnt.toNat ≤ s.params.valCap →
    ∃ t, exec (.slice n) s = .next t ∧
      t = { s with
        mem := t.mem, valCnt := s.symCnt
        status := { s.status with
          busy := false, done := true, err := false, errcode := 0#4
          oorSeen := t.status.oorSeen, nfSeen := t.status.nfSeen } } ∧
      (∀ k, k < s.symCnt.toNat → ∀ (x y tr ti : F64) (r i : Int),
        x = F64.fadd (F64.fmul (s.reElem k) s.rotCos) (F64.fmul (s.imElem k) s.rotSin) →
        y = F64.fsub (F64.fmul (s.imElem k) s.rotCos) (F64.fmul (s.reElem k) s.rotSin) →
        tr = F64.fsub (F64.fadd x (F64.ofHalves (side n))) 0x3FE0000000000000#64 →
        ti = F64.fsub (F64.fadd y (F64.ofHalves (side n))) 0x3FE0000000000000#64 →
        r = F64.roundHalfAway tr → i = F64.roundHalfAway ti →
        (F64.isFinite tr = false ∨ F64.isFinite ti = false → t.valElem k = 0x80000000#32) ∧
        (F64.isFinite tr = true → F64.isFinite ti = true →
          (t.valElem k).getLsbD 31 = false ∧
          ((t.valElem k).getLsbD 30 = true ↔ r < 0 ∨ (side n : Int) ≤ r ∨ i < 0 ∨ (2 ^ n : Int) ≤ i * side n + r) ∧
          (t.valElem k).extractLsb' 16 14 = 0#14 ∧
          (((t.valElem k).extractLsb' 0 16).toNat : Int) =
            if s.ctrl.clamp then
              min (max i 0) ((side n : Int) - 1) * side n + min (max r 0) ((side n : Int) - 1)
            else (i * side n + r) % 2 ^ n)) ∧
      (t.status.oorSeen = true ↔
        s.status.oorSeen = true ∨ ∃ k, k < s.symCnt.toNat ∧ (t.valElem k).getLsbD 30 = true) ∧
      (t.status.nfSeen = true ↔
        s.status.nfSeen = true ∨ ∃ k, k < s.symCnt.toNat ∧ (t.valElem k).getLsbD 31 = true) ∧
      (∀ a, (a < 0x100000 ∨ 0x100000 + 4 * s.symCnt.toNat ≤ a) → t.readByte a = s.readByte a)

/-- R170, R173: MOD. The values are PACK's, the records are the points of these values; nothing else changes. -/
def Obligations.ModModulatesTheStream : Prop :=
  ∀ (n : Nat) (s : State), s.params.Legal → 1 ≤ n → n ≤ s.params.maxBps → (n % 2 = 0 ∨ s.ctrl.legacyOdd = true) →
    s.byteLen.toNat ≤ s.params.byteCap → (8 * s.byteLen.toNat + n - 1) / n ≤ s.params.valCap →
    (8 * s.byteLen.toNat + n - 1) / n ≤ s.params.symCap →
    ∃ t, exec (.mod n) s = .next t ∧
      t = { s with
        mem := t.mem, valCnt := t.valCnt, symCnt := t.symCnt
        status := { s.status with busy := false, done := true, err := false, errcode := 0#4 } } ∧
      t.valCnt.toNat = (8 * s.byteLen.toNat + n - 1) / n ∧
      t.symCnt.toNat = (8 * s.byteLen.toNat + n - 1) / n ∧
      (∀ k i, k < t.valCnt.toNat → (t.valElem k).getLsbD i =
        (decide (i < n) && decide (k * n + (n - 1 - i) < 8 * s.byteLen.toNat) &&
          (s.byteElem ((k * n + (n - 1 - i)) / 8)).getLsbD (7 - (k * n + (n - 1 - i)) % 8))) ∧
      (∀ k, k < t.symCnt.toNat →
        (t.reElem k, t.imElem k) = mapPoint s.rotCos s.rotSin (side n) (t.valElem k).toNat) ∧
      (∀ a, (a < 0x100000 ∨ 0x100000 + 4 * t.valCnt.toNat ≤ a) → (a < 0x1000000 ∨ 0x1000000 + 16 * t.symCnt.toNat ≤ a) →
        t.readByte a = s.readByte a)

/-- R171: DEMOD. The words are SLICE's, the bytes are UNPACK's of these words; nothing else changes. -/
def Obligations.DemodDemodulatesTheSignal : Prop :=
  ∀ (n : Nat) (s : State), s.params.Legal → 1 ≤ n → n ≤ s.params.maxBps →
    (n % 2 = 0 ∨ s.ctrl.legacyOdd = true ∧ s.ctrl.clamp = false) →
    s.symCnt.toNat ≤ s.params.symCap → s.symCnt.toNat ≤ s.params.valCap →
    (s.symCnt.toNat * n + 7) / 8 ≤ s.params.byteCap →
    ∃ t, exec (.demod n) s = .next t ∧
      t = { s with
        mem := t.mem, valCnt := s.symCnt, byteLen := t.byteLen
        status := { s.status with
          busy := false, done := true, err := false, errcode := 0#4
          oorSeen := t.status.oorSeen, nfSeen := t.status.nfSeen } } ∧
      t.byteLen.toNat = (s.symCnt.toNat * n + 7) / 8 ∧
      (∀ k, k < s.symCnt.toNat →
        t.valElem k = (slicePoint s.rotCos s.rotSin s.ctrl.clamp n (s.reElem k) (s.imElem k)).word) ∧
      (t.status.oorSeen = true ↔
        s.status.oorSeen = true ∨ ∃ k, k < s.symCnt.toNat ∧ (t.valElem k).getLsbD 30 = true) ∧
      (t.status.nfSeen = true ↔
        s.status.nfSeen = true ∨ ∃ k, k < s.symCnt.toNat ∧ (t.valElem k).getLsbD 31 = true) ∧
      (∀ j, j < 8 * t.byteLen.toNat → (t.byteElem (j / 8)).getLsbD (7 - j % 8) =
        (decide (j < s.symCnt.toNat * n) && (t.valElem (j / n)).getLsbD (n - 1 - j % n))) ∧
      (∀ a, (a < 0x10000 ∨ 0x10000 + t.byteLen.toNat ≤ a) → (a < 0x100000 ∨ 0x100000 + 4 * s.symCnt.toNat ≤ a) →
        t.readByte a = s.readByte a)

/-- R182: SER. -/
def Obligations.SerGivesStreamLength : Prop :=
  ∀ (n : Nat) (s : State), s.params.Legal → s.symCnt.toNat ≤ s.params.symCap →
    ∃ t, exec (.ser n) s = .next t ∧ t.sigLen.toNat = 16 * s.symCnt.toNat ∧
      t = { s with
        sigLen := t.sigLen
        status := { s.status with busy := false, done := true, err := false, errcode := 0#4 } }

/-- R181, R183: DESER of a stream that fits: whole records, or a truncated stream under TRUNC = 1. -/
def Obligations.DeserGivesSymbolCount : Prop :=
  ∀ (n : Nat) (s : State), s.sigLen.toNat ≤ 16 * s.params.symCap →
    (s.sigLen.toNat % 16 = 0 ∨ s.ctrl.trunc = true) →
    ∃ t, exec (.deser n) s = .next t ∧ t.symCnt.toNat = s.sigLen.toNat / 16 ∧
      t = { s with
        symCnt := t.symCnt
        status := { s.status with
          busy := false, done := true, err := false, errcode := 0#4
          truncSeen := s.status.truncSeen || decide (s.sigLen.toNat % 16 ≠ 0) } }

/-- R170, D32: a successful MOD leaves exactly what PACK and then MAP leave. -/
def Obligations.ModIsPackThenMap : Prop :=
  ∀ (n : Nat) (s t : State), s.params.Legal → exec (.mod n) s = .next t → t.status.err = false →
    ∃ u, exec (.pack n) s = .next u ∧ exec (.map n) u = .next t

/-- R171, D32: a successful DEMOD leaves exactly what SLICE and then UNPACK leave. -/
def Obligations.DemodIsSliceThenUnpack : Prop :=
  ∀ (n : Nat) (s t : State), s.params.Legal → exec (.demod n) s = .next t → t.status.err = false →
    ∃ u, exec (.slice n) s = .next u ∧ exec (.unpack n) u = .next t

/-! ### Round trips -/

/-- R115: PACK, then UNPACK with the same `n`. -/
def Obligations.PackUnpackContract : Prop :=
  ∀ (n : Nat) (s u t : State), s.params.Legal → exec (.pack n) s = .next u → u.status.err = false →
    exec (.unpack n) u = .next t → t.status.err = false →
    t.byteLen.toNat = ((8 * s.byteLen.toNat + n - 1) / n * n + 7) / 8 ∧
    (∀ i, i < s.byteLen.toNat → t.byteElem i = s.byteElem i) ∧
    (∀ i, s.byteLen.toNat ≤ i → i < t.byteLen.toNat → t.byteElem i = 0#8) ∧
    (t.byteLen = s.byteLen ↔ 8 * s.byteLen.toNat % n = 0) ∧
    (8 * s.byteLen.toNat % n ≠ 0 → t.byteLen.toNat = s.byteLen.toNat +
      if 8 < (8 * s.byteLen.toNat + n - 1) / n * n - 8 * s.byteLen.toNat then 2 else 1)

/-- R116: UNPACK, then PACK with the same `n`; the bits from `n` up are lost. -/
def Obligations.UnpackPackLaw : Prop :=
  ∀ (n : Nat) (s u t : State), s.params.Legal → exec (.unpack n) s = .next u → u.status.err = false →
    exec (.pack n) u = .next t → t.status.err = false →
    t.valCnt.toNat = (8 * ((s.valCnt.toNat * n + 7) / 8) + n - 1) / n ∧
    (∀ k, k < s.valCnt.toNat → (t.valElem k).toNat = (s.valElem k).toNat % 2 ^ n) ∧
    (∀ k, s.valCnt.toNat ≤ k → k < t.valCnt.toNat → t.valElem k = 0#32) ∧
    (s.valCnt.toNat * n % 8 = 0 → t.valCnt = s.valCnt)

/-- R184: SER, then DESER. -/
def Obligations.SerDeserRoundTrip : Prop :=
  ∀ (a b : Nat) (s : State), s.params.Legal → s.symCnt.toNat ≤ s.params.symCap →
    ∃ u t, exec (.ser a) s = .next u ∧ exec (.deser b) u = .next t ∧ t.status.err = false ∧
      t.symCnt = s.symCnt ∧ ∀ k, t.reElem k = s.reElem k ∧ t.imElem k = s.imElem k

/-- R150: with the reset rotation constants, slicing the point of a value gives the value: OOR = 0, NF = 0. -/
def Obligations.NoiselessRoundTrip : Prop :=
  ∀ (n v : Nat) (clamp : Bool), 1 ≤ n → n ≤ 16 → v < 2 ^ n → (clamp = true → n % 2 = 0) →
    ∀ p : F64 × F64, p = mapPoint 0x3FEF838B8C811C17#64 0x3FC63A1A7E0B7389#64 (side n) v →
      (slicePoint 0x3FEF838B8C811C17#64 0x3FC63A1A7E0B7389#64 clamp n p.1 p.2).word = BitVec.ofNat 32 v

/-- R172: with the reset rotation constants, MOD, then DEMOD with the same `n`, gives the bytes back; when `8L mod n` is not 0
zero bytes follow. -/
def Obligations.PipelineRoundTrip : Prop :=
  ∀ (n : Nat) (s u t : State), s.params.Legal → s.rotCos = 0x3FEF838B8C811C17#64 → s.rotSin = 0x3FC63A1A7E0B7389#64 →
    exec (.mod n) s = .next u → u.status.err = false → exec (.demod n) u = .next t → t.status.err = false →
    (∀ i, i < s.byteLen.toNat → t.byteElem i = s.byteElem i) ∧
    (8 * s.byteLen.toNat % n = 0 → t.byteLen = s.byteLen) ∧
    (8 * s.byteLen.toNat % n ≠ 0 → s.byteLen.toNat < t.byteLen.toNat ∧
      ∀ i, s.byteLen.toNat ≤ i → i < t.byteLen.toNat → t.byteElem i = 0#8)

/-! ### Arithmetic and geometry -/

/-- R11: `fadd` and `fsub` of finite values round the exact result once, to nearest, ties to even. That a result is finite exactly when
its exact value is below the midpoint between the largest finite value and 2^1024 is IEEE 754's, which R11 names and does not
repeat: the model's choice, PRESUMED, log 18, as are the patterns' values. Values are counted in units of 2^-1074. -/
def Obligations.AddRoundsToNearestEven : Prop :=
  ∀ x y r : F64, ∀ e : Int, F64.isFinite x = true → F64.isFinite y = true →
    (r = F64.fadd x y ∧ e = F64.toInt x + F64.toInt y ∨ r = F64.fsub x y ∧ e = F64.toInt x - F64.toInt y) →
    (F64.isFinite r = true ↔ |e| < (2 ^ 54 - 1) * 2 ^ 2044) ∧
    (F64.isFinite r = true → ∀ z : F64, F64.isFinite z = true →
      |F64.toInt r - e| ≤ |F64.toInt z - e| ∧
      (F64.toInt z ≠ F64.toInt r → |F64.toInt r - e| = |F64.toInt z - e| → r.getLsbD 0 = false))

/-- R11: `fmul` of finite values rounds the exact product once, to nearest, ties to even. That a product is finite exactly when its
exact value is below the midpoint between the largest finite value and 2^1024 is IEEE 754's, which R11 names and does not
repeat: the model's choice, PRESUMED, log 18, as are the patterns' values. The product of two values counted in units of 2^-1074
is counted in units of 2^-2148. -/
def Obligations.MulRoundsToNearestEven : Prop :=
  ∀ x y : F64, F64.isFinite x = true → F64.isFinite y = true →
    (F64.isFinite (F64.fmul x y) = true ↔
      |F64.toInt x * F64.toInt y| < (2 ^ 54 - 1) * 2 ^ 2044 * 2 ^ 1074) ∧
    (F64.isFinite (F64.fmul x y) = true → ∀ z : F64, F64.isFinite z = true →
      |F64.toInt (F64.fmul x y) * 2 ^ 1074 - F64.toInt x * F64.toInt y| ≤
        |F64.toInt z * 2 ^ 1074 - F64.toInt x * F64.toInt y| ∧
      (F64.toInt z ≠ F64.toInt (F64.fmul x y) →
        |F64.toInt (F64.fmul x y) * 2 ^ 1074 - F64.toInt x * F64.toInt y| =
          |F64.toInt z * 2 ^ 1074 - F64.toInt x * F64.toInt y| → (F64.fmul x y).getLsbD 0 = false))

/-- R135: `RoundHalfAway(t)` is the integer nearest to `t`; of two equally near ones it is the one farther from 0. -/
def Obligations.RoundHalfAwayIsNearest : Prop :=
  ∀ (t : F64) (q : Int), F64.isFinite t = true →
    |F64.toInt t - F64.roundHalfAway t * 2 ^ 1074| ≤ |F64.toInt t - q * 2 ^ 1074| ∧
    (|F64.toInt t - F64.roundHalfAway t * 2 ^ 1074| = |F64.toInt t - q * 2 ^ 1074| → |q| ≤ |F64.roundHalfAway t|)

/-- R10, R15, R130, R131: the side of the lattice is `isqrt(2^n)`; for even `n` it is `2^(n/2)`. -/
def Obligations.SideIsIntegerSquareRoot : Prop :=
  ∀ n : Nat, side n * side n ≤ 2 ^ n ∧ 2 ^ n < (side n + 1) * (side n + 1) ∧ (n % 2 = 0 → side n = 2 ^ (n / 2))

/-- R132: the lattice coordinate `idx - h + 1/2` is computed exactly (counted in units of 2^-1074, doubled). -/
def Obligations.LatticeCoordIsExact : Prop :=
  ∀ sd idx : Nat, sd ≤ 65536 → idx ≤ 65535 →
    F64.isFinite (latticeCoord sd idx) = true ∧
    2 * F64.toInt (latticeCoord sd idx) = (2 * (idx : Int) - sd + 1) * 2 ^ 1074

/-- R138: for even `n` a finite point is out of lattice exactly when one of its indices is outside `[0, s)`. -/
def Obligations.OutOfLatticeIsOutsideSquare : Prop :=
  ∀ (n : Nat) (r i : Int), n % 2 = 0 →
    (outOfLattice n r i = false ↔ 0 ≤ r ∧ r < side n ∧ 0 ≤ i ∧ i < side n)

/-- R141: a point with a NaN or infinite half, or rotated by a NaN or infinite constant, is non-finite under both policies, and its
word is 0x80000000. -/
def Obligations.NonFiniteInputsAreReported : Prop :=
  ∀ (c s x y : F64) (clamp : Bool) (n : Nat),
    (F64.isFinite c = false ∨ F64.isFinite s = false ∨ F64.isFinite x = false ∨ F64.isFinite y = false) →
    (slicePoint c s clamp n x y).word = 0x80000000#32

/-- R142: the value the slicer stores is below `2^n`, for every `n` the check R146 lets through. -/
def Obligations.SlicedValueFitsItsField : Prop :=
  ∀ (c s x y : F64) (clamp : Bool) (n : Nat), (clamp = true → n % 2 = 0) →
    (slicePoint c s clamp n x y).val < 2 ^ n

/-- R151: in exact arithmetic, rounding each coordinate picks a nearest point of the infinite lattice, and clamping each rounded
index then picks a nearest point of the square. Distances are squared, coordinates counted in units of 2^-1074. -/
def Obligations.RoundThenClampIsNearestPoint : Prop :=
  ∀ (n : Nat) (tr ti : F64) (p q : Int), F64.isFinite tr = true → F64.isFinite ti = true →
    ((F64.toInt tr - F64.roundHalfAway tr * 2 ^ 1074) ^ 2 + (F64.toInt ti - F64.roundHalfAway ti * 2 ^ 1074) ^ 2 ≤
      (F64.toInt tr - p * 2 ^ 1074) ^ 2 + (F64.toInt ti - q * 2 ^ 1074) ^ 2) ∧
    (0 ≤ p → p < side n → 0 ≤ q → q < side n →
      (F64.toInt tr - clampIndex (side n) (F64.roundHalfAway tr) * 2 ^ 1074) ^ 2 +
        (F64.toInt ti - clampIndex (side n) (F64.roundHalfAway ti) * 2 ^ 1074) ^ 2 ≤
      (F64.toInt tr - p * 2 ^ 1074) ^ 2 + (F64.toInt ti - q * 2 ^ 1074) ^ 2)

/-- R143, last sentence, which does not hold of R134's arithmetic: with huge finite constants two products overflow to infinities
of one sign, whose difference is a NaN (log 16; that they overflow to infinities is log 18). -/
def Obligations.FiniteConstantsNeverMakeNaN : Prop :=
  ∀ (c s : F64) (n v : Nat), 1 ≤ n → n ≤ 16 → v < 2 ^ n → F64.isFinite c = true → F64.isFinite s = true →
    F64.isNaN (mapPoint c s (side n) v).1 = false ∧ F64.isNaN (mapPoint c s (side n) v).2 = false

/-! ### The host's side -/

/-- R61, R63: an access any of whose bytes is unmapped gets DECERR and has no effect, whatever BUSY is. -/
def Obligations.UnmappedAccessGetsDecerr : Prop :=
  ∀ (s : State) (addr v : Word) (size : Size) (j : Nat), j < size.bytes →
    0x1000 ≤ addr.toNat + j → ¬(0x10000 ≤ addr.toNat + j ∧ addr.toNat + j < 0x10000 + s.params.byteCap) →
    ¬(0x100000 ≤ addr.toNat + j ∧ addr.toNat + j < 0x100000 + 4 * s.params.valCap) →
    ¬(0x1000000 ≤ addr.toNat + j ∧ addr.toNat + j < 0x1000000 + 16 * s.params.symCap) →
    s.transact (.read addr size) = (s, { resp := .decerr, data := 0#32 }) ∧
    s.transact (.write addr size v) = (s, { resp := .decerr, data := 0#32 })

/-- R64, R65: a mapped access of the wrong size or alignment gets SLVERR and has no effect, OVR included, whatever BUSY is. -/
def Obligations.MisalignedAccessGetsSlverr : Prop :=
  ∀ (s : State) (addr v : Word) (size : Size),
    (∀ j, j < size.bytes → mappedAddr s.params (addr.toNat + j) = true) →
    (addr.toNat < 0x1000 ∧ (size ≠ .four ∨ addr.toNat % 4 ≠ 0) ∨ 0x1000 ≤ addr.toNat ∧ addr.toNat % size.bytes ≠ 0) →
    s.transact (.read addr size) = (s, { resp := .slverr, data := 0#32 }) ∧
    s.transact (.write addr size v) = (s, { resp := .slverr, data := 0#32 })

/-- R251: while BUSY is 1 every legal buffer access is refused: SLVERR, data 0, OVR set, nothing else. -/
def Obligations.BusyBufferAccessIsRefused : Prop :=
  ∀ (s : State) (addr v : Word) (size : Size), s.status.busy = true → addr.toNat % size.bytes = 0 →
    (∀ j, j < size.bytes → bufferAddr s.params (addr.toNat + j) = true) →
    s.transact (.read addr size) =
      ({ s with status := { s.status with ovr := true } }, { resp := .slverr, data := 0#32 }) ∧
    s.transact (.write addr size v) =
      ({ s with status := { s.status with ovr := true } }, { resp := .slverr, data := 0#32 })

/-- R65, R69, R70: while BUSY is 0 a legal buffer read returns the bytes, the lowest address in bits 7:0, and changes nothing; a
legal write stores exactly them. -/
def Obligations.IdleBufferAccessMovesBytes : Prop :=
  ∀ (s : State) (addr v : Word) (size : Size), s.status.busy = false → addr.toNat % size.bytes = 0 →
    (∀ j, j < size.bytes → bufferAddr s.params (addr.toNat + j) = true) →
    (∃ d, s.transact (.read addr size) = (s, { resp := .okay, data := d }) ∧ d.toNat < 2 ^ (8 * size.bytes) ∧
      ∀ j, j < size.bytes → d.extractLsb' (8 * j) 8 = s.readByte (addr.toNat + j)) ∧
    (∃ t, s.transact (.write addr size v) = (t, { resp := .okay, data := 0#32 }) ∧ t = { s with mem := t.mem } ∧
      (∀ j, j < size.bytes → t.readByte (addr.toNat + j) = v.extractLsb' (8 * j) 8) ∧
      ∀ a, (a < addr.toNat ∨ addr.toNat + size.bytes ≤ a) → t.readByte a = s.readByte a)

/-- R67, R68: VAL words and both halves of a record are little-endian, real part first. -/
def Obligations.BufferElementsAreLittleEndian : Prop :=
  ∀ (s : State) (k j : Nat),
    (j < 4 → (s.valElem k).extractLsb' (8 * j) 8 = s.readByte (0x100000 + 4 * k + j)) ∧
    (j < 8 → (s.reElem k).extractLsb' (8 * j) 8 = s.readByte (0x1000000 + 16 * k + j)) ∧
    (j < 8 → (s.imElem k).extractLsb' (8 * j) 8 = s.readByte (0x1000000 + 16 * k + 8 + j))

/-- R250 (and R201 for CMD): while BUSY is 1 a write to CTRL, CMD, a length register or a ROT half is refused. -/
def Obligations.BusyRegisterWriteIsRefused : Prop :=
  ∀ (s : State) (addr v : Word), s.status.busy = true →
    addr ∈ [0x20#32, 0x28#32, 0x30#32, 0x34#32, 0x38#32, 0x3C#32, 0x40#32, 0x44#32, 0x48#32, 0x4C#32] →
    s.transact (.write addr .four v) =
      ({ s with status := { s.status with ovr := true } }, { resp := .slverr, data := 0#32 })

/-- R200: a write to CMD while BUSY is 0 accepts the word, whatever it is. -/
def Obligations.CmdWriteAcceptsCommand : Prop :=
  ∀ (s : State) (w : Word), s.status.busy = false →
    s.transact (.write 0x28#32 .four w) =
      ({ s with cmd := w, status := { s.status with done := false, err := false, errcode := 0#4, busy := true } },
        { resp := .okay, data := 0#32 })

/-- R40: a write to STATUS, accepted in any state. -/
def Obligations.StatusWriteClearsOnes : Prop :=
  ∀ (s : State) (w : Word), ∃ t, s.transact (.write 0x24#32 .four w) = (t, { resp := .okay, data := 0#32 }) ∧
    t = { s with status := t.status } ∧ t.status.busy = s.status.busy ∧
    t.status.done = (s.status.done && !w.getLsbD 1) ∧ t.status.err = (s.status.err && !w.getLsbD 2) ∧
    t.status.errcode = (if w.getLsbD 2 then 0#4 else s.status.errcode) ∧
    t.status.ovr = (s.status.ovr && !w.getLsbD 3) ∧ t.status.truncSeen = (s.status.truncSeen && !w.getLsbD 4) ∧
    t.status.oorSeen = (s.status.oorSeen && !w.getLsbD 5) ∧ t.status.nfSeen = (s.status.nfSeen && !w.getLsbD 6)

/-- R26, R41 to R47: while BUSY is 0 a write to a length register or a ROT half stores the whole word, and one to CTRL stores bits
3:0; reading gives it back, and nothing else changes. R41, R250: a read of any of these registers or of CMD gets OKAY and the
register's value at any time, BUSY = 1 included, and changes nothing; CMD reads as the word last accepted, and no command's
completion changes it. -/
def Obligations.IdleRegisterWriteStores : Prop :=
  (∀ (s : State) (w : Word), s.status.busy = false →
    s.transact (.write 0x20#32 .four w) = ({ s with ctrl :=
      { ie := w.getLsbD 0, trunc := w.getLsbD 1, clamp := w.getLsbD 2, legacyOdd := w.getLsbD 3 } },
      { resp := .okay, data := 0#32 }) ∧
    s.transact (.write 0x30#32 .four w) = ({ s with byteLen := w }, { resp := .okay, data := 0#32 }) ∧
    s.transact (.write 0x34#32 .four w) = ({ s with valCnt := w }, { resp := .okay, data := 0#32 }) ∧
    s.transact (.write 0x38#32 .four w) = ({ s with symCnt := w }, { resp := .okay, data := 0#32 }) ∧
    s.transact (.write 0x3C#32 .four w) = ({ s with sigLen := w }, { resp := .okay, data := 0#32 }) ∧
    s.transact (.write 0x40#32 .four w) = ({ s with rotCosLo := w }, { resp := .okay, data := 0#32 }) ∧
    s.transact (.write 0x44#32 .four w) = ({ s with rotCosHi := w }, { resp := .okay, data := 0#32 }) ∧
    s.transact (.write 0x48#32 .four w) = ({ s with rotSinLo := w }, { resp := .okay, data := 0#32 }) ∧
    s.transact (.write 0x4C#32 .four w) = ({ s with rotSinHi := w }, { resp := .okay, data := 0#32 }) ∧
    (∀ addr, addr ∈ [0x20#32, 0x30#32, 0x34#32, 0x38#32, 0x3C#32, 0x40#32, 0x44#32, 0x48#32, 0x4C#32] →
      ((s.transact (.write addr .four w)).1.transact (.read addr .four)).2 =
        { resp := .okay, data := if addr = 0x20#32 then w &&& 0xF#32 else w }) ∧
    ((s.transact (.write 0x28#32 .four w)).1.transact (.read 0x28#32 .four)).2 = { resp := .okay, data := w }) ∧
  ∀ s : State,
    (∃ c, s.transact (.read 0x20#32 .four) = (s, { resp := .okay, data := c }) ∧ c.getLsbD 0 = s.ctrl.ie ∧
      c.getLsbD 1 = s.ctrl.trunc ∧ c.getLsbD 2 = s.ctrl.clamp ∧ c.getLsbD 3 = s.ctrl.legacyOdd ∧
      c.extractLsb' 4 28 = 0#28) ∧
    s.transact (.read 0x28#32 .four) = (s, { resp := .okay, data := s.cmd }) ∧
    s.transact (.read 0x30#32 .four) = (s, { resp := .okay, data := s.byteLen }) ∧
    s.transact (.read 0x34#32 .four) = (s, { resp := .okay, data := s.valCnt }) ∧
    s.transact (.read 0x38#32 .four) = (s, { resp := .okay, data := s.symCnt }) ∧
    s.transact (.read 0x3C#32 .four) = (s, { resp := .okay, data := s.sigLen }) ∧
    s.transact (.read 0x40#32 .four) = (s, { resp := .okay, data := s.rotCosLo }) ∧
    s.transact (.read 0x44#32 .four) = (s, { resp := .okay, data := s.rotCosHi }) ∧
    s.transact (.read 0x48#32 .four) = (s, { resp := .okay, data := s.rotSinLo }) ∧
    s.transact (.read 0x4C#32 .four) = (s, { resp := .okay, data := s.rotSinHi }) ∧
    ∀ (i : Instr) (t : State), exec i s = .next t →
      t.transact (.read 0x28#32 .four) = (t, { resp := .okay, data := s.cmd })

/-- R21 to R25, R48: a write to a read-only register or to a reserved offset is ignored with OKAY, whatever BUSY is; ID and the
parameters read their constants, a reserved offset reads 0. -/
def Obligations.ReadOnlyAndReservedOffsets : Prop :=
  ∀ (s : State) (addr w : Word), addr.toNat < 0x1000 → addr.toNat % 4 = 0 →
    addr ∉ [0x20#32, 0x24#32, 0x28#32, 0x30#32, 0x34#32, 0x38#32, 0x3C#32, 0x40#32, 0x44#32, 0x48#32, 0x4C#32] →
    s.transact (.write addr .four w) = (s, { resp := .okay, data := 0#32 }) ∧
    s.transact (.read addr .four) = (s, { resp := .okay, data :=
      if addr = 0x0#32 then 0x51414D01#32
      else if addr = 0x4#32 then BitVec.ofNat 32 s.params.maxBps
      else if addr = 0x8#32 then BitVec.ofNat 32 s.params.byteCap
      else if addr = 0xC#32 then BitVec.ofNat 32 s.params.valCap
      else if addr = 0x10#32 then BitVec.ofNat 32 s.params.symCap
      else 0#32 })

/-- R31: the bits of STATUS as the host reads them, at any time and with no side effect. -/
def Obligations.StatusReadLayout : Prop :=
  ∀ s : State, ∃ w, s.transact (.read 0x24#32 .four) = (s, { resp := .okay, data := w }) ∧
    w.getLsbD 0 = s.status.busy ∧ w.getLsbD 1 = s.status.done ∧ w.getLsbD 2 = s.status.err ∧
    w.getLsbD 3 = s.status.ovr ∧ w.getLsbD 4 = s.status.truncSeen ∧ w.getLsbD 5 = s.status.oorSeen ∧
    w.getLsbD 6 = s.status.nfSeen ∧ w.getLsbD 7 = false ∧ w.extractLsb' 8 4 = s.status.errcode ∧
    w.extractLsb' 12 20 = 0#20

/-- R72: a read changes nothing but, when it is refused while BUSY is 1, OVR. -/
def Obligations.ReadsHaveNoSideEffect : Prop :=
  ∀ (s : State) (addr : Word) (size : Size),
    (s.transact (.read addr size)).1 = s ∨
    s.status.busy = true ∧ (s.transact (.read addr size)).1 = { s with status := { s.status with ovr := true } } ∧
      (s.transact (.read addr size)).2 = { resp := .slverr, data := 0#32 }

/-- R54, R212, R213: irq is high exactly when CTRL.IE and STATUS.DONE are 1, so it follows CTRL.IE at a completion and is low after
a write of bit 1 to STATUS, the acceptance of a command, a write that clears CTRL.IE, and reset. -/
def Obligations.IrqFollowsDone : Prop :=
  ∀ (s : State) (w : Word),
    (s.irq = true ↔ s.ctrl.ie = true ∧ s.status.done = true) ∧
    (∀ i t, exec i s = .next t → t.irq = s.ctrl.ie) ∧
    (w.getLsbD 1 = true → (s.transact (.write 0x24#32 .four w)).1.irq = false) ∧
    (s.status.busy = false → (s.transact (.write 0x28#32 .four w)).1.irq = false) ∧
    (s.status.busy = false → w.getLsbD 0 = false → (s.transact (.write 0x20#32 .four w)).1.irq = false) ∧
    s.resetInput.irq = false ∧ State.reset.irq = false

/-- R20, R240, R241, R243: every register after reset, whatever came before, a pending command included. That reset is an event at
the head of the script is the model's choice (log 1). -/
def Obligations.ResetSetsEveryRegister : Prop :=
  ∀ (s : State) (rest : List Event), s.script = .reset :: rest →
    ∃ t, step s = .next t ∧ t.irq = false ∧
      (∀ r : Reg, t.readReg r = match r with
        | .id => 0x51414D01#32
        | .maxbps => s.readReg .maxbps
        | .capByte => s.readReg .capByte
        | .capVal => s.readReg .capVal
        | .capSym => s.readReg .capSym
        | .rotCosLo => 0x8C811C17#32
        | .rotCosHi => 0x3FEF838B#32
        | .rotSinLo => 0x7E0B7389#32
        | .rotSinHi => 0x3FC63A1A#32
        | _ => 0#32)
end

