-- ==== Sys2Proof/Laws/State.lean ====
section
/-! SUPPORT. One lemma per field per update of the state and of STATUS, so that no proof unfolds a record update. A command's
body leaves every field but its outputs as it was (60_exceptions.md R207, 92_eei_decisions.md D30). -/

namespace Sys2Proof.Machine

section
variable (s : State)

@[simp] theorem accept_params (w : Word) : (s.accept w).params = s.params := rfl
@[simp] theorem accept_ctrl (w : Word) : (s.accept w).ctrl = s.ctrl := rfl
@[simp] theorem accept_status (w : Word) : (s.accept w).status = s.status.accepted := rfl
@[simp] theorem accept_cmd (w : Word) : (s.accept w).cmd = w := rfl
@[simp] theorem accept_byteLen (w : Word) : (s.accept w).byteLen = s.byteLen := rfl
@[simp] theorem accept_valCnt (w : Word) : (s.accept w).valCnt = s.valCnt := rfl
@[simp] theorem accept_symCnt (w : Word) : (s.accept w).symCnt = s.symCnt := rfl
@[simp] theorem accept_sigLen (w : Word) : (s.accept w).sigLen = s.sigLen := rfl
@[simp] theorem accept_rotCosLo (w : Word) : (s.accept w).rotCosLo = s.rotCosLo := rfl
@[simp] theorem accept_rotCosHi (w : Word) : (s.accept w).rotCosHi = s.rotCosHi := rfl
@[simp] theorem accept_rotSinLo (w : Word) : (s.accept w).rotSinLo = s.rotSinLo := rfl
@[simp] theorem accept_rotSinHi (w : Word) : (s.accept w).rotSinHi = s.rotSinHi := rfl
@[simp] theorem accept_mem (w : Word) : (s.accept w).mem = s.mem := rfl
@[simp] theorem accept_epoch (w : Word) : (s.accept w).epoch = s.epoch := rfl
@[simp] theorem accept_reply (w : Word) : (s.accept w).reply = s.reply := rfl
@[simp] theorem accept_script (w : Word) : (s.accept w).script = s.script := rfl

@[simp] theorem fail_params (e : ErrCode) : (s.fail e).params = s.params := rfl
@[simp] theorem fail_ctrl (e : ErrCode) : (s.fail e).ctrl = s.ctrl := rfl
@[simp] theorem fail_status (e : ErrCode) : (s.fail e).status = s.status.failed e := rfl
@[simp] theorem fail_cmd (e : ErrCode) : (s.fail e).cmd = s.cmd := rfl
@[simp] theorem fail_byteLen (e : ErrCode) : (s.fail e).byteLen = s.byteLen := rfl
@[simp] theorem fail_valCnt (e : ErrCode) : (s.fail e).valCnt = s.valCnt := rfl
@[simp] theorem fail_symCnt (e : ErrCode) : (s.fail e).symCnt = s.symCnt := rfl
@[simp] theorem fail_sigLen (e : ErrCode) : (s.fail e).sigLen = s.sigLen := rfl
@[simp] theorem fail_rotCosLo (e : ErrCode) : (s.fail e).rotCosLo = s.rotCosLo := rfl
@[simp] theorem fail_rotCosHi (e : ErrCode) : (s.fail e).rotCosHi = s.rotCosHi := rfl
@[simp] theorem fail_rotSinLo (e : ErrCode) : (s.fail e).rotSinLo = s.rotSinLo := rfl
@[simp] theorem fail_rotSinHi (e : ErrCode) : (s.fail e).rotSinHi = s.rotSinHi := rfl
@[simp] theorem fail_mem (e : ErrCode) : (s.fail e).mem = s.mem := rfl
@[simp] theorem fail_epoch (e : ErrCode) : (s.fail e).epoch = s.epoch := rfl
@[simp] theorem fail_reply (e : ErrCode) : (s.fail e).reply = s.reply := rfl
@[simp] theorem fail_script (e : ErrCode) : (s.fail e).script = s.script := rfl

@[simp] theorem succeed_params : s.succeed.params = s.params := rfl
@[simp] theorem succeed_ctrl : s.succeed.ctrl = s.ctrl := rfl
@[simp] theorem succeed_status : s.succeed.status = s.status.succeeded := rfl
@[simp] theorem succeed_cmd : s.succeed.cmd = s.cmd := rfl
@[simp] theorem succeed_byteLen : s.succeed.byteLen = s.byteLen := rfl
@[simp] theorem succeed_valCnt : s.succeed.valCnt = s.valCnt := rfl
@[simp] theorem succeed_symCnt : s.succeed.symCnt = s.symCnt := rfl
@[simp] theorem succeed_sigLen : s.succeed.sigLen = s.sigLen := rfl
@[simp] theorem succeed_rotCosLo : s.succeed.rotCosLo = s.rotCosLo := rfl
@[simp] theorem succeed_rotCosHi : s.succeed.rotCosHi = s.rotCosHi := rfl
@[simp] theorem succeed_rotSinLo : s.succeed.rotSinLo = s.rotSinLo := rfl
@[simp] theorem succeed_rotSinHi : s.succeed.rotSinHi = s.rotSinHi := rfl
@[simp] theorem succeed_mem : s.succeed.mem = s.mem := rfl
@[simp] theorem succeed_epoch : s.succeed.epoch = s.epoch := rfl
@[simp] theorem succeed_reply : s.succeed.reply = s.reply := rfl
@[simp] theorem succeed_script : s.succeed.script = s.script := rfl

@[simp] theorem refuse_params : s.refuse.params = s.params := rfl
@[simp] theorem refuse_ctrl : s.refuse.ctrl = s.ctrl := rfl
@[simp] theorem refuse_status : s.refuse.status = s.status.overrun := rfl
@[simp] theorem refuse_cmd : s.refuse.cmd = s.cmd := rfl
@[simp] theorem refuse_byteLen : s.refuse.byteLen = s.byteLen := rfl
@[simp] theorem refuse_valCnt : s.refuse.valCnt = s.valCnt := rfl
@[simp] theorem refuse_symCnt : s.refuse.symCnt = s.symCnt := rfl
@[simp] theorem refuse_sigLen : s.refuse.sigLen = s.sigLen := rfl
@[simp] theorem refuse_rotCosLo : s.refuse.rotCosLo = s.rotCosLo := rfl
@[simp] theorem refuse_rotCosHi : s.refuse.rotCosHi = s.rotCosHi := rfl
@[simp] theorem refuse_rotSinLo : s.refuse.rotSinLo = s.rotSinLo := rfl
@[simp] theorem refuse_rotSinHi : s.refuse.rotSinHi = s.rotSinHi := rfl
@[simp] theorem refuse_mem : s.refuse.mem = s.mem := rfl
@[simp] theorem refuse_epoch : s.refuse.epoch = s.epoch := rfl
@[simp] theorem refuse_reply : s.refuse.reply = s.reply := rfl
@[simp] theorem refuse_script : s.refuse.script = s.script := rfl

@[simp] theorem writeBytes_params (a : Nat) (bs : List Byte) : (s.writeBytes a bs).params = s.params := rfl
@[simp] theorem writeBytes_ctrl (a : Nat) (bs : List Byte) : (s.writeBytes a bs).ctrl = s.ctrl := rfl
@[simp] theorem writeBytes_status (a : Nat) (bs : List Byte) : (s.writeBytes a bs).status = s.status := rfl
@[simp] theorem writeBytes_cmd (a : Nat) (bs : List Byte) : (s.writeBytes a bs).cmd = s.cmd := rfl
@[simp] theorem writeBytes_byteLen (a : Nat) (bs : List Byte) : (s.writeBytes a bs).byteLen = s.byteLen := rfl
@[simp] theorem writeBytes_valCnt (a : Nat) (bs : List Byte) : (s.writeBytes a bs).valCnt = s.valCnt := rfl
@[simp] theorem writeBytes_symCnt (a : Nat) (bs : List Byte) : (s.writeBytes a bs).symCnt = s.symCnt := rfl
@[simp] theorem writeBytes_sigLen (a : Nat) (bs : List Byte) : (s.writeBytes a bs).sigLen = s.sigLen := rfl
@[simp] theorem writeBytes_rotCosLo (a : Nat) (bs : List Byte) : (s.writeBytes a bs).rotCosLo = s.rotCosLo := rfl
@[simp] theorem writeBytes_rotCosHi (a : Nat) (bs : List Byte) : (s.writeBytes a bs).rotCosHi = s.rotCosHi := rfl
@[simp] theorem writeBytes_rotSinLo (a : Nat) (bs : List Byte) : (s.writeBytes a bs).rotSinLo = s.rotSinLo := rfl
@[simp] theorem writeBytes_rotSinHi (a : Nat) (bs : List Byte) : (s.writeBytes a bs).rotSinHi = s.rotSinHi := rfl
@[simp] theorem writeBytes_mem (a : Nat) (bs : List Byte) : (s.writeBytes a bs).mem = s.mem.store a bs := rfl
@[simp] theorem writeBytes_epoch (a : Nat) (bs : List Byte) : (s.writeBytes a bs).epoch = s.epoch := rfl
@[simp] theorem writeBytes_reply (a : Nat) (bs : List Byte) : (s.writeBytes a bs).reply = s.reply := rfl
@[simp] theorem writeBytes_script (a : Nat) (bs : List Byte) : (s.writeBytes a bs).script = s.script := rfl

@[simp] theorem setByteElems_params (bs : List Byte) : (s.setByteElems bs).params = s.params := rfl
@[simp] theorem setByteElems_ctrl (bs : List Byte) : (s.setByteElems bs).ctrl = s.ctrl := rfl
@[simp] theorem setByteElems_status (bs : List Byte) : (s.setByteElems bs).status = s.status := rfl
@[simp] theorem setByteElems_cmd (bs : List Byte) : (s.setByteElems bs).cmd = s.cmd := rfl
@[simp] theorem setByteElems_byteLen (bs : List Byte) : (s.setByteElems bs).byteLen = s.byteLen := rfl
@[simp] theorem setByteElems_valCnt (bs : List Byte) : (s.setByteElems bs).valCnt = s.valCnt := rfl
@[simp] theorem setByteElems_symCnt (bs : List Byte) : (s.setByteElems bs).symCnt = s.symCnt := rfl
@[simp] theorem setByteElems_sigLen (bs : List Byte) : (s.setByteElems bs).sigLen = s.sigLen := rfl
@[simp] theorem setByteElems_rotCosLo (bs : List Byte) : (s.setByteElems bs).rotCosLo = s.rotCosLo := rfl
@[simp] theorem setByteElems_rotCosHi (bs : List Byte) : (s.setByteElems bs).rotCosHi = s.rotCosHi := rfl
@[simp] theorem setByteElems_rotSinLo (bs : List Byte) : (s.setByteElems bs).rotSinLo = s.rotSinLo := rfl
@[simp] theorem setByteElems_rotSinHi (bs : List Byte) : (s.setByteElems bs).rotSinHi = s.rotSinHi := rfl
@[simp] theorem setByteElems_mem (bs : List Byte) : (s.setByteElems bs).mem = s.mem.store Config.byteBase bs := rfl
@[simp] theorem setByteElems_epoch (bs : List Byte) : (s.setByteElems bs).epoch = s.epoch := rfl
@[simp] theorem setByteElems_reply (bs : List Byte) : (s.setByteElems bs).reply = s.reply := rfl
@[simp] theorem setByteElems_script (bs : List Byte) : (s.setByteElems bs).script = s.script := rfl

@[simp] theorem setValElems_params (ws : List Word) : (s.setValElems ws).params = s.params := rfl
@[simp] theorem setValElems_ctrl (ws : List Word) : (s.setValElems ws).ctrl = s.ctrl := rfl
@[simp] theorem setValElems_status (ws : List Word) : (s.setValElems ws).status = s.status := rfl
@[simp] theorem setValElems_cmd (ws : List Word) : (s.setValElems ws).cmd = s.cmd := rfl
@[simp] theorem setValElems_byteLen (ws : List Word) : (s.setValElems ws).byteLen = s.byteLen := rfl
@[simp] theorem setValElems_valCnt (ws : List Word) : (s.setValElems ws).valCnt = s.valCnt := rfl
@[simp] theorem setValElems_symCnt (ws : List Word) : (s.setValElems ws).symCnt = s.symCnt := rfl
@[simp] theorem setValElems_sigLen (ws : List Word) : (s.setValElems ws).sigLen = s.sigLen := rfl
@[simp] theorem setValElems_rotCosLo (ws : List Word) : (s.setValElems ws).rotCosLo = s.rotCosLo := rfl
@[simp] theorem setValElems_rotCosHi (ws : List Word) : (s.setValElems ws).rotCosHi = s.rotCosHi := rfl
@[simp] theorem setValElems_rotSinLo (ws : List Word) : (s.setValElems ws).rotSinLo = s.rotSinLo := rfl
@[simp] theorem setValElems_rotSinHi (ws : List Word) : (s.setValElems ws).rotSinHi = s.rotSinHi := rfl
@[simp] theorem setValElems_mem (ws : List Word) : (s.setValElems ws).mem = s.mem.store Config.valBase (ws.flatMap (leBytes 4)) := rfl
@[simp] theorem setValElems_epoch (ws : List Word) : (s.setValElems ws).epoch = s.epoch := rfl
@[simp] theorem setValElems_reply (ws : List Word) : (s.setValElems ws).reply = s.reply := rfl
@[simp] theorem setValElems_script (ws : List Word) : (s.setValElems ws).script = s.script := rfl

@[simp] theorem setSymElems_params (ps : List (F64 × F64)) : (s.setSymElems ps).params = s.params := rfl
@[simp] theorem setSymElems_ctrl (ps : List (F64 × F64)) : (s.setSymElems ps).ctrl = s.ctrl := rfl
@[simp] theorem setSymElems_status (ps : List (F64 × F64)) : (s.setSymElems ps).status = s.status := rfl
@[simp] theorem setSymElems_cmd (ps : List (F64 × F64)) : (s.setSymElems ps).cmd = s.cmd := rfl
@[simp] theorem setSymElems_byteLen (ps : List (F64 × F64)) : (s.setSymElems ps).byteLen = s.byteLen := rfl
@[simp] theorem setSymElems_valCnt (ps : List (F64 × F64)) : (s.setSymElems ps).valCnt = s.valCnt := rfl
@[simp] theorem setSymElems_symCnt (ps : List (F64 × F64)) : (s.setSymElems ps).symCnt = s.symCnt := rfl
@[simp] theorem setSymElems_sigLen (ps : List (F64 × F64)) : (s.setSymElems ps).sigLen = s.sigLen := rfl
@[simp] theorem setSymElems_rotCosLo (ps : List (F64 × F64)) : (s.setSymElems ps).rotCosLo = s.rotCosLo := rfl
@[simp] theorem setSymElems_rotCosHi (ps : List (F64 × F64)) : (s.setSymElems ps).rotCosHi = s.rotCosHi := rfl
@[simp] theorem setSymElems_rotSinLo (ps : List (F64 × F64)) : (s.setSymElems ps).rotSinLo = s.rotSinLo := rfl
@[simp] theorem setSymElems_rotSinHi (ps : List (F64 × F64)) : (s.setSymElems ps).rotSinHi = s.rotSinHi := rfl
@[simp] theorem setSymElems_mem (ps : List (F64 × F64)) : (s.setSymElems ps).mem = s.mem.store Config.symBase (ps.flatMap fun p => leBytes 8 p.1 ++ leBytes 8 p.2) := rfl
@[simp] theorem setSymElems_epoch (ps : List (F64 × F64)) : (s.setSymElems ps).epoch = s.epoch := rfl
@[simp] theorem setSymElems_reply (ps : List (F64 × F64)) : (s.setSymElems ps).reply = s.reply := rfl
@[simp] theorem setSymElems_script (ps : List (F64 × F64)) : (s.setSymElems ps).script = s.script := rfl

@[simp] theorem packBody_params (n len : Nat) : (packBody n len s).params = s.params := rfl
@[simp] theorem packBody_ctrl (n len : Nat) : (packBody n len s).ctrl = s.ctrl := rfl
@[simp] theorem packBody_status (n len : Nat) : (packBody n len s).status = s.status := rfl
@[simp] theorem packBody_cmd (n len : Nat) : (packBody n len s).cmd = s.cmd := rfl
@[simp] theorem packBody_byteLen (n len : Nat) : (packBody n len s).byteLen = s.byteLen := rfl
@[simp] theorem packBody_valCnt (n len : Nat) : (packBody n len s).valCnt = BitVec.ofNat 32 (packCount n len) := rfl
@[simp] theorem packBody_symCnt (n len : Nat) : (packBody n len s).symCnt = s.symCnt := rfl
@[simp] theorem packBody_sigLen (n len : Nat) : (packBody n len s).sigLen = s.sigLen := rfl
@[simp] theorem packBody_rotCosLo (n len : Nat) : (packBody n len s).rotCosLo = s.rotCosLo := rfl
@[simp] theorem packBody_rotCosHi (n len : Nat) : (packBody n len s).rotCosHi = s.rotCosHi := rfl
@[simp] theorem packBody_rotSinLo (n len : Nat) : (packBody n len s).rotSinLo = s.rotSinLo := rfl
@[simp] theorem packBody_rotSinHi (n len : Nat) : (packBody n len s).rotSinHi = s.rotSinHi := rfl
@[simp] theorem packBody_mem (n len : Nat) : (packBody n len s).mem = (s.setValElems ((List.range (packCount n len)).map (packValue n ((List.range len).map s.byteElem)))).mem := rfl
@[simp] theorem packBody_epoch (n len : Nat) : (packBody n len s).epoch = s.epoch := rfl
@[simp] theorem packBody_reply (n len : Nat) : (packBody n len s).reply = s.reply := rfl
@[simp] theorem packBody_script (n len : Nat) : (packBody n len s).script = s.script := rfl

@[simp] theorem unpackBody_params (n c : Nat) : (unpackBody n c s).params = s.params := rfl
@[simp] theorem unpackBody_ctrl (n c : Nat) : (unpackBody n c s).ctrl = s.ctrl := rfl
@[simp] theorem unpackBody_status (n c : Nat) : (unpackBody n c s).status = s.status := rfl
@[simp] theorem unpackBody_cmd (n c : Nat) : (unpackBody n c s).cmd = s.cmd := rfl
@[simp] theorem unpackBody_byteLen (n c : Nat) : (unpackBody n c s).byteLen = BitVec.ofNat 32 (unpackCount n c) := rfl
@[simp] theorem unpackBody_valCnt (n c : Nat) : (unpackBody n c s).valCnt = s.valCnt := rfl
@[simp] theorem unpackBody_symCnt (n c : Nat) : (unpackBody n c s).symCnt = s.symCnt := rfl
@[simp] theorem unpackBody_sigLen (n c : Nat) : (unpackBody n c s).sigLen = s.sigLen := rfl
@[simp] theorem unpackBody_rotCosLo (n c : Nat) : (unpackBody n c s).rotCosLo = s.rotCosLo := rfl
@[simp] theorem unpackBody_rotCosHi (n c : Nat) : (unpackBody n c s).rotCosHi = s.rotCosHi := rfl
@[simp] theorem unpackBody_rotSinLo (n c : Nat) : (unpackBody n c s).rotSinLo = s.rotSinLo := rfl
@[simp] theorem unpackBody_rotSinHi (n c : Nat) : (unpackBody n c s).rotSinHi = s.rotSinHi := rfl
@[simp] theorem unpackBody_mem (n c : Nat) : (unpackBody n c s).mem = (s.setByteElems ((List.range (unpackCount n c)).map (unpackByte n ((List.range c).map s.valElem)))).mem := rfl
@[simp] theorem unpackBody_epoch (n c : Nat) : (unpackBody n c s).epoch = s.epoch := rfl
@[simp] theorem unpackBody_reply (n c : Nat) : (unpackBody n c s).reply = s.reply := rfl
@[simp] theorem unpackBody_script (n c : Nat) : (unpackBody n c s).script = s.script := rfl

@[simp] theorem mapBody_params (n c : Nat) : (mapBody n c s).params = s.params := rfl
@[simp] theorem mapBody_ctrl (n c : Nat) : (mapBody n c s).ctrl = s.ctrl := rfl
@[simp] theorem mapBody_status (n c : Nat) : (mapBody n c s).status = s.status := rfl
@[simp] theorem mapBody_cmd (n c : Nat) : (mapBody n c s).cmd = s.cmd := rfl
@[simp] theorem mapBody_byteLen (n c : Nat) : (mapBody n c s).byteLen = s.byteLen := rfl
@[simp] theorem mapBody_valCnt (n c : Nat) : (mapBody n c s).valCnt = s.valCnt := rfl
@[simp] theorem mapBody_symCnt (n c : Nat) : (mapBody n c s).symCnt = BitVec.ofNat 32 c := rfl
@[simp] theorem mapBody_sigLen (n c : Nat) : (mapBody n c s).sigLen = s.sigLen := rfl
@[simp] theorem mapBody_rotCosLo (n c : Nat) : (mapBody n c s).rotCosLo = s.rotCosLo := rfl
@[simp] theorem mapBody_rotCosHi (n c : Nat) : (mapBody n c s).rotCosHi = s.rotCosHi := rfl
@[simp] theorem mapBody_rotSinLo (n c : Nat) : (mapBody n c s).rotSinLo = s.rotSinLo := rfl
@[simp] theorem mapBody_rotSinHi (n c : Nat) : (mapBody n c s).rotSinHi = s.rotSinHi := rfl
@[simp] theorem mapBody_mem (n c : Nat) : (mapBody n c s).mem = (s.setSymElems ((List.range c).map fun k => mapPoint s.rotCos s.rotSin (side n) (valueField (s.valElem k)))).mem := rfl
@[simp] theorem mapBody_epoch (n c : Nat) : (mapBody n c s).epoch = s.epoch := rfl
@[simp] theorem mapBody_reply (n c : Nat) : (mapBody n c s).reply = s.reply := rfl
@[simp] theorem mapBody_script (n c : Nat) : (mapBody n c s).script = s.script := rfl

@[simp] theorem sliceBody_params (n c : Nat) : (sliceBody n c s).params = s.params := rfl
@[simp] theorem sliceBody_ctrl (n c : Nat) : (sliceBody n c s).ctrl = s.ctrl := rfl
@[simp] theorem sliceBody_status (n c : Nat) : (sliceBody n c s).status = s.status.sliced (((List.range c).map (s.sliceElem n)).any SliceResult.oor) (((List.range c).map (s.sliceElem n)).any SliceResult.nf) := rfl
@[simp] theorem sliceBody_cmd (n c : Nat) : (sliceBody n c s).cmd = s.cmd := rfl
@[simp] theorem sliceBody_byteLen (n c : Nat) : (sliceBody n c s).byteLen = s.byteLen := rfl
@[simp] theorem sliceBody_valCnt (n c : Nat) : (sliceBody n c s).valCnt = BitVec.ofNat 32 c := rfl
@[simp] theorem sliceBody_symCnt (n c : Nat) : (sliceBody n c s).symCnt = s.symCnt := rfl
@[simp] theorem sliceBody_sigLen (n c : Nat) : (sliceBody n c s).sigLen = s.sigLen := rfl
@[simp] theorem sliceBody_rotCosLo (n c : Nat) : (sliceBody n c s).rotCosLo = s.rotCosLo := rfl
@[simp] theorem sliceBody_rotCosHi (n c : Nat) : (sliceBody n c s).rotCosHi = s.rotCosHi := rfl
@[simp] theorem sliceBody_rotSinLo (n c : Nat) : (sliceBody n c s).rotSinLo = s.rotSinLo := rfl
@[simp] theorem sliceBody_rotSinHi (n c : Nat) : (sliceBody n c s).rotSinHi = s.rotSinHi := rfl
@[simp] theorem sliceBody_mem (n c : Nat) : (sliceBody n c s).mem = (s.setValElems (((List.range c).map (s.sliceElem n)).map SliceResult.word)).mem := rfl
@[simp] theorem sliceBody_epoch (n c : Nat) : (sliceBody n c s).epoch = s.epoch := rfl
@[simp] theorem sliceBody_reply (n c : Nat) : (sliceBody n c s).reply = s.reply := rfl
@[simp] theorem sliceBody_script (n c : Nat) : (sliceBody n c s).script = s.script := rfl

@[simp] theorem resetInput_params : s.resetInput.params = s.params := rfl
@[simp] theorem resetInput_ctrl : s.resetInput.ctrl = State.reset.ctrl := rfl
@[simp] theorem resetInput_status : s.resetInput.status = State.reset.status := rfl
@[simp] theorem resetInput_cmd : s.resetInput.cmd = State.reset.cmd := rfl
@[simp] theorem resetInput_byteLen : s.resetInput.byteLen = State.reset.byteLen := rfl
@[simp] theorem resetInput_valCnt : s.resetInput.valCnt = State.reset.valCnt := rfl
@[simp] theorem resetInput_symCnt : s.resetInput.symCnt = State.reset.symCnt := rfl
@[simp] theorem resetInput_sigLen : s.resetInput.sigLen = State.reset.sigLen := rfl
@[simp] theorem resetInput_rotCosLo : s.resetInput.rotCosLo = State.reset.rotCosLo := rfl
@[simp] theorem resetInput_rotCosHi : s.resetInput.rotCosHi = State.reset.rotCosHi := rfl
@[simp] theorem resetInput_rotSinLo : s.resetInput.rotSinLo = State.reset.rotSinLo := rfl
@[simp] theorem resetInput_rotSinHi : s.resetInput.rotSinHi = State.reset.rotSinHi := rfl
@[simp] theorem resetInput_mem : s.resetInput.mem = State.reset.mem := rfl
@[simp] theorem resetInput_epoch : s.resetInput.epoch = s.epoch + 1 := rfl
@[simp] theorem resetInput_reply : s.resetInput.reply = State.reset.reply := rfl
@[simp] theorem resetInput_script : s.resetInput.script = s.script := rfl

@[simp] theorem placeCommand_params (w : Word) : (s.placeCommand w).params = s.params := rfl
@[simp] theorem placeCommand_ctrl (w : Word) : (s.placeCommand w).ctrl = s.ctrl := rfl
@[simp] theorem placeCommand_status (w : Word) : (s.placeCommand w).status = s.status.accepted := rfl
@[simp] theorem placeCommand_cmd (w : Word) : (s.placeCommand w).cmd = w := rfl
@[simp] theorem placeCommand_byteLen (w : Word) : (s.placeCommand w).byteLen = s.byteLen := rfl
@[simp] theorem placeCommand_valCnt (w : Word) : (s.placeCommand w).valCnt = s.valCnt := rfl
@[simp] theorem placeCommand_symCnt (w : Word) : (s.placeCommand w).symCnt = s.symCnt := rfl
@[simp] theorem placeCommand_sigLen (w : Word) : (s.placeCommand w).sigLen = s.sigLen := rfl
@[simp] theorem placeCommand_rotCosLo (w : Word) : (s.placeCommand w).rotCosLo = s.rotCosLo := rfl
@[simp] theorem placeCommand_rotCosHi (w : Word) : (s.placeCommand w).rotCosHi = s.rotCosHi := rfl
@[simp] theorem placeCommand_rotSinLo (w : Word) : (s.placeCommand w).rotSinLo = s.rotSinLo := rfl
@[simp] theorem placeCommand_rotSinHi (w : Word) : (s.placeCommand w).rotSinHi = s.rotSinHi := rfl
@[simp] theorem placeCommand_mem (w : Word) : (s.placeCommand w).mem = s.mem := rfl
@[simp] theorem placeCommand_epoch (w : Word) : (s.placeCommand w).epoch = s.epoch := rfl
@[simp] theorem placeCommand_reply (w : Word) : (s.placeCommand w).reply = s.reply := rfl
@[simp] theorem placeCommand_script (w : Word) : (s.placeCommand w).script = .engine :: s.script := rfl

end

section
variable (st : Status)

@[simp] theorem status_accepted_busy : st.accepted.busy = true := rfl
@[simp] theorem status_accepted_done : st.accepted.done = false := rfl
@[simp] theorem status_accepted_err : st.accepted.err = false := rfl
@[simp] theorem status_accepted_ovr : st.accepted.ovr = st.ovr := rfl
@[simp] theorem status_accepted_truncSeen : st.accepted.truncSeen = st.truncSeen := rfl
@[simp] theorem status_accepted_oorSeen : st.accepted.oorSeen = st.oorSeen := rfl
@[simp] theorem status_accepted_nfSeen : st.accepted.nfSeen = st.nfSeen := rfl
@[simp] theorem status_accepted_errcode : st.accepted.errcode = 0#4 := rfl

@[simp] theorem status_failed_busy (e : ErrCode) : (st.failed e).busy = false := rfl
@[simp] theorem status_failed_done (e : ErrCode) : (st.failed e).done = true := rfl
@[simp] theorem status_failed_err (e : ErrCode) : (st.failed e).err = true := rfl
@[simp] theorem status_failed_ovr (e : ErrCode) : (st.failed e).ovr = st.ovr := rfl
@[simp] theorem status_failed_truncSeen (e : ErrCode) : (st.failed e).truncSeen = st.truncSeen := rfl
@[simp] theorem status_failed_oorSeen (e : ErrCode) : (st.failed e).oorSeen = st.oorSeen := rfl
@[simp] theorem status_failed_nfSeen (e : ErrCode) : (st.failed e).nfSeen = st.nfSeen := rfl
@[simp] theorem status_failed_errcode (e : ErrCode) : (st.failed e).errcode = e.code := rfl

@[simp] theorem status_succeeded_busy : st.succeeded.busy = false := rfl
@[simp] theorem status_succeeded_done : st.succeeded.done = true := rfl
@[simp] theorem status_succeeded_err : st.succeeded.err = false := rfl
@[simp] theorem status_succeeded_ovr : st.succeeded.ovr = st.ovr := rfl
@[simp] theorem status_succeeded_truncSeen : st.succeeded.truncSeen = st.truncSeen := rfl
@[simp] theorem status_succeeded_oorSeen : st.succeeded.oorSeen = st.oorSeen := rfl
@[simp] theorem status_succeeded_nfSeen : st.succeeded.nfSeen = st.nfSeen := rfl
@[simp] theorem status_succeeded_errcode : st.succeeded.errcode = 0#4 := rfl

@[simp] theorem status_overrun_busy : st.overrun.busy = st.busy := rfl
@[simp] theorem status_overrun_done : st.overrun.done = st.done := rfl
@[simp] theorem status_overrun_err : st.overrun.err = st.err := rfl
@[simp] theorem status_overrun_ovr : st.overrun.ovr = true := rfl
@[simp] theorem status_overrun_truncSeen : st.overrun.truncSeen = st.truncSeen := rfl
@[simp] theorem status_overrun_oorSeen : st.overrun.oorSeen = st.oorSeen := rfl
@[simp] theorem status_overrun_nfSeen : st.overrun.nfSeen = st.nfSeen := rfl
@[simp] theorem status_overrun_errcode : st.overrun.errcode = st.errcode := rfl

@[simp] theorem status_truncated_busy : st.truncated.busy = st.busy := rfl
@[simp] theorem status_truncated_done : st.truncated.done = st.done := rfl
@[simp] theorem status_truncated_err : st.truncated.err = st.err := rfl
@[simp] theorem status_truncated_ovr : st.truncated.ovr = st.ovr := rfl
@[simp] theorem status_truncated_truncSeen : st.truncated.truncSeen = true := rfl
@[simp] theorem status_truncated_oorSeen : st.truncated.oorSeen = st.oorSeen := rfl
@[simp] theorem status_truncated_nfSeen : st.truncated.nfSeen = st.nfSeen := rfl
@[simp] theorem status_truncated_errcode : st.truncated.errcode = st.errcode := rfl

@[simp] theorem status_sliced_busy (oor nf : Bool) : (st.sliced oor nf).busy = st.busy := rfl
@[simp] theorem status_sliced_done (oor nf : Bool) : (st.sliced oor nf).done = st.done := rfl
@[simp] theorem status_sliced_err (oor nf : Bool) : (st.sliced oor nf).err = st.err := rfl
@[simp] theorem status_sliced_ovr (oor nf : Bool) : (st.sliced oor nf).ovr = st.ovr := rfl
@[simp] theorem status_sliced_truncSeen (oor nf : Bool) : (st.sliced oor nf).truncSeen = st.truncSeen := rfl
@[simp] theorem status_sliced_oorSeen (oor nf : Bool) : (st.sliced oor nf).oorSeen = (st.oorSeen || oor) := rfl
@[simp] theorem status_sliced_nfSeen (oor nf : Bool) : (st.sliced oor nf).nfSeen = (st.nfSeen || nf) := rfl
@[simp] theorem status_sliced_errcode (oor nf : Bool) : (st.sliced oor nf).errcode = st.errcode := rfl

@[simp] theorem status_writeOneToClear_busy (w : Word) : (st.writeOneToClear w).busy = st.busy := rfl
@[simp] theorem status_writeOneToClear_done (w : Word) : (st.writeOneToClear w).done = (st.done && !w.getLsbD 1) := rfl
@[simp] theorem status_writeOneToClear_err (w : Word) : (st.writeOneToClear w).err = (st.err && !w.getLsbD 2) := rfl
@[simp] theorem status_writeOneToClear_ovr (w : Word) : (st.writeOneToClear w).ovr = (st.ovr && !w.getLsbD 3) := rfl
@[simp] theorem status_writeOneToClear_truncSeen (w : Word) : (st.writeOneToClear w).truncSeen = (st.truncSeen && !w.getLsbD 4) := rfl
@[simp] theorem status_writeOneToClear_oorSeen (w : Word) : (st.writeOneToClear w).oorSeen = (st.oorSeen && !w.getLsbD 5) := rfl
@[simp] theorem status_writeOneToClear_nfSeen (w : Word) : (st.writeOneToClear w).nfSeen = (st.nfSeen && !w.getLsbD 6) := rfl
@[simp] theorem status_writeOneToClear_errcode (w : Word) : (st.writeOneToClear w).errcode = if w.getLsbD 2 then 0#4 else st.errcode := rfl

end

end Sys2Proof.Machine
end

