-- ==== Sys2Proof/Laws/Memory.lean ====
section
/-! SUPPORT. Memory: what a store changes and what it leaves (20_memory.md R70), the canonical form, bytes and numbers
(R69), elements of the buffers (R66 to R68). -/

namespace Sys2Proof.Machine

/-! ### One byte -/

theorem byteAt_append (m k : Memory) (a : Nat) :
    Memory.byteAt (m ++ k) a = (m.byteAt a).or (k.byteAt a) := by
  induction m with
  | nil => simp [Memory.byteAt]
  | cons c m ih =>
    obtain ⟨b, v⟩ := c
    by_cases h : b = a <;> simp [Memory.byteAt, h, ih]

theorem byteAt_filter (m : Memory) (p : Nat → Bool) (a : Nat) :
    Memory.byteAt (m.filter fun c => p c.1) a = if p a then m.byteAt a else none := by
  induction m with
  | nil => simp [Memory.byteAt]
  | cons c m ih =>
    obtain ⟨b, v⟩ := c
    by_cases hp : p b <;> by_cases h : b = a
    · subst h; simp [Memory.byteAt, hp]
    · simp [Memory.byteAt, hp, h, ih]
    · subst h; simp [hp, ih]
    · simp [Memory.byteAt, hp, h, ih]

theorem byteAt_cells (base : Nat) (bs : List Byte) (a : Nat) :
    Memory.byteAt (cells base bs) a = if base ≤ a then bs[a - base]? else none := by
  induction bs generalizing base with
  | nil => simp [cells, Memory.byteAt]
  | cons b bs ih =>
    rcases Nat.lt_trichotomy base a with h | h | h
    · obtain ⟨d, rfl⟩ : ∃ d, a = base + 1 + d := ⟨a - (base + 1), by omega⟩
      simp [cells, Memory.byteAt, ih, show base ≠ base + 1 + d by omega, show base ≤ base + 1 + d by omega,
        show base + 1 + d - base = d + 1 by omega]
    · subst h; simp [cells, Memory.byteAt]
    · simp [cells, Memory.byteAt, ih, show base ≠ a by omega, show ¬ base ≤ a by omega, show ¬ base + 1 ≤ a by omega]

/-- A store puts its bytes at its addresses and leaves every other address as it was. -/
theorem byteAt_store (m : Memory) (base : Nat) (bs : List Byte) (a : Nat) :
    (m.store base bs).byteAt a =
      if base ≤ a ∧ a < base + bs.length then bs[a - base]? else m.byteAt a := by
  have h1 := byteAt_filter m (fun x => decide (x < base)) a
  have h2 := byteAt_filter m (fun x => decide (base + bs.length ≤ x)) a
  rw [Memory.store, byteAt_append, byteAt_append, h1, h2, byteAt_cells]
  rcases Nat.lt_or_ge a base with h | h
  · simp [h, show ¬ base ≤ a by omega, show ¬ base + bs.length ≤ a by omega]
  · rcases Nat.lt_or_ge a (base + bs.length) with h' | h'
    · simp [h, h', show ¬ a < base by omega, show ¬ base + bs.length ≤ a by omega]
    · have : bs[a - base]? = none := by simp; omega
      simp [h, h', this, show ¬ a < base by omega, show ¬ a < base + bs.length by omega]

theorem readByte_writeBytes (s : State) (base : Nat) (bs : List Byte) (a : Nat) :
    (s.writeBytes base bs).readByte a =
      if h : base ≤ a ∧ a < base + bs.length then bs[a - base] else s.readByte a := by
  simp only [State.readByte, writeBytes_mem, writeBytes_epoch, byteAt_store]
  by_cases h : base ≤ a ∧ a < base + bs.length
  · have : a - base < bs.length := by omega
    simp [h, this]
  · simp [h]

/-- Reading inside what was just written. -/
theorem readByte_writeBytes_inside (s : State) (base : Nat) (bs : List Byte) (j : Nat) (h : j < bs.length) :
    (s.writeBytes base bs).readByte (base + j) = bs[j] := by
  rw [readByte_writeBytes, dif_pos ⟨by omega, by omega⟩]; simp

/-- Reading outside what was just written. -/
theorem readByte_writeBytes_outside (s : State) (base : Nat) (bs : List Byte) (a : Nat)
    (h : a < base ∨ base + bs.length ≤ a) : (s.writeBytes base bs).readByte a = s.readByte a := by
  rw [readByte_writeBytes, dif_neg (by omega)]

/-- Only memory and the reset count decide what an address reads as. -/
theorem readByte_congr {s t : State} (hm : t.mem = s.mem) (he : t.epoch = s.epoch) (a : Nat) :
    t.readByte a = s.readByte a := by simp [State.readByte, hm, he]

theorem readBytes_congr {s t : State} (hm : t.mem = s.mem) (he : t.epoch = s.epoch) (a n : Nat) :
    t.readBytes a n = s.readBytes a n := by simp [State.readBytes, readByte_congr hm he]

/-! ### The canonical form -/

theorem mem_cells_addr {base : Nat} {bs : List Byte} {c : Host.Cell} (h : c ∈ cells base bs) :
    base ≤ c.1 ∧ c.1 < base + bs.length := by
  induction bs generalizing base with
  | nil => simp [cells] at h
  | cons b bs ih =>
    rcases List.mem_cons.1 h with rfl | h
    · simp
    · have := ih h; simp; omega

theorem cells_wf (base : Nat) (bs : List Byte) : Memory.wf (cells base bs) := by
  induction bs generalizing base with
  | nil => simp [cells]
  | cons b bs ih =>
    exact List.pairwise_cons.2 ⟨fun c hc => by have := mem_cells_addr hc; simp; omega, ih _⟩

/-- A store keeps the canonical form. -/
theorem store_wf {m : Memory} (hm : m.wf) (base : Nat) (bs : List Byte) : (m.store base bs).wf := by
  refine List.pairwise_append.2 ⟨List.pairwise_append.2 ⟨hm.filter _, cells_wf _ _, ?_⟩, hm.filter _, ?_⟩
  · intro c hc d hd
    have h1 := (List.mem_filter.1 hc).2
    have h2 := mem_cells_addr hd
    simp at h1; omega
  · intro c hc d hd
    have h2 := (List.mem_filter.1 hd).2
    simp only [decide_eq_true_eq] at h2
    rcases List.mem_append.1 hc with hc | hc
    · have h1 := (List.mem_filter.1 hc).2
      simp at h1; omega
    · have h1 := mem_cells_addr hc; omega

/-- An address listed after a store was listed before or was stored to. -/
theorem mem_store {m : Memory} {base : Nat} {bs : List Byte} {c : Host.Cell} (h : c ∈ m.store base bs) :
    c ∈ m ∨ (base ≤ c.1 ∧ c.1 < base + bs.length) := by
  simp only [Memory.store, List.mem_append, List.mem_filter] at h
  rcases h with (h | h) | h
  · exact .inl h.1
  · exact .inr (mem_cells_addr h)
  · exact .inl h.1

/-- The empty memory of `State.reset` is canonical. -/
theorem reset_mem_wf : State.reset.mem.wf := by decide

/-! ### Bytes and numbers -/

@[simp] theorem length_leBytes {w : Nat} (n : Nat) (v : BitVec w) : (leBytes n v).length = n := by simp [leBytes]

@[simp] theorem length_readBytes (s : State) (a n : Nat) : (s.readBytes a n).length = n := by simp [State.readBytes]

theorem getElem_leBytes {w : Nat} (n : Nat) (v : BitVec w) (j : Nat) (h : j < (leBytes n v).length) :
    (leBytes n v)[j] = v.extractLsb' (8 * j) 8 := by simp [leBytes]

theorem leValue_lt (bs : List Byte) : leValue bs < 256 ^ bs.length := by
  induction bs with
  | nil => simp [leValue]
  | cons b bs ih =>
    have := b.isLt
    simp only [leValue, List.length_cons, Nat.pow_succ]
    omega

theorem leValue_leBytes_add {w : Nat} (n k : Nat) (v : BitVec w) :
    leValue ((List.range n).map fun j => v.extractLsb' (8 * (k + j)) 8) = v.toNat / 2 ^ (8 * k) % 2 ^ (8 * n) := by
  induction n generalizing k with
  | zero => simp [leValue, Nat.mod_one]
  | succ n ih =>
    have hk : (fun j => v.extractLsb' (8 * (k + (j + 1))) 8) = fun j => v.extractLsb' (8 * (k + 1 + j)) 8 := by
      funext j; rw [show k + (j + 1) = k + 1 + j by omega]
    rw [List.range_succ_eq_map]
    simp only [List.map_cons, List.map_map, leValue, Function.comp_def, Nat.succ_eq_add_one]
    rw [hk, ih]
    have e1 : (2 : Nat) ^ (8 * (k + 1)) = 2 ^ (8 * k) * 256 := by
      rw [show 8 * (k + 1) = 8 * k + 8 by omega, Nat.pow_add]
    have e2 : (2 : Nat) ^ (8 * (n + 1)) = 256 * 2 ^ (8 * n) := by
      rw [show 8 * (n + 1) = 8 + 8 * n by omega, Nat.pow_add]
    rw [e1, e2, ← Nat.div_div_eq_div_mul, Nat.mod_mul]
    simp [BitVec.extractLsb'_toNat, Nat.shiftRight_eq_div_pow]

/-- Bytes written least significant first are read back as the number's low bits. -/
theorem leValue_leBytes {w : Nat} (n : Nat) (v : BitVec w) : leValue (leBytes n v) = v.toNat % 2 ^ (8 * n) := by
  simpa [leBytes] using leValue_leBytes_add n 0 v

theorem ofNat_leValue_leBytes (v : Word) : BitVec.ofNat 32 (leValue (leBytes 4 v)) = v := by
  apply BitVec.eq_of_toNat_eq
  rw [leValue_leBytes, BitVec.toNat_ofNat]
  have := v.isLt
  omega

theorem ofNat_leValue_leBytes64 (v : F64) : BitVec.ofNat 64 (leValue (leBytes 8 v)) = v := by
  apply BitVec.eq_of_toNat_eq
  rw [leValue_leBytes, BitVec.toNat_ofNat]
  have := v.isLt
  omega

/-- Reading back a whole piece of what was just written. -/
theorem readBytes_writeBytes_inside (s : State) (base : Nat) (bs : List Byte) (off n : Nat)
    (h : off + n ≤ bs.length) : (s.writeBytes base bs).readBytes (base + off) n = (bs.drop off).take n := by
  apply List.ext_getElem
  · simp; omega
  · intro j h1 h2
    simp only [length_readBytes] at h1
    simp only [State.readBytes, List.getElem_map, List.getElem_range, List.getElem_take, List.getElem_drop]
    rw [Nat.add_assoc, readByte_writeBytes_inside _ _ _ _ (by omega)]

/-- Reading a piece disjoint from what was just written. -/
theorem readBytes_writeBytes_outside (s : State) (base : Nat) (bs : List Byte) (a n : Nat)
    (h : a + n ≤ base ∨ base + bs.length ≤ a) : (s.writeBytes base bs).readBytes a n = s.readBytes a n := by
  apply List.ext_getElem
  · simp
  · intro j h1 h2
    simp only [length_readBytes] at h1
    simp only [State.readBytes, List.getElem_map, List.getElem_range]
    exact readByte_writeBytes_outside _ _ _ _ (by omega)

/-! ### Elements of the buffers -/

/-- A run of equally long pieces, laid one after the other. -/
theorem length_flatMap_const {α : Type} (l : List α) (f : α → List Byte) (n : Nat) (h : ∀ x, (f x).length = n) :
    (l.flatMap f).length = n * l.length := by
  induction l with
  | nil => simp
  | cons x l ih => simp only [List.flatMap_cons, List.length_append, h, ih, List.length_cons]; ring

theorem take_drop_flatMap {α : Type} (l : List α) (f : α → List Byte) (n : Nat) (h : ∀ x, (f x).length = n)
    (k : Nat) (hk : k < l.length) : ((l.flatMap f).drop (n * k)).take n = f l[k] := by
  induction l generalizing k with
  | nil => simp at hk
  | cons x l ih =>
    cases k with
    | zero => simp [List.flatMap_cons, h]
    | succ k =>
      have : n * (k + 1) = (f x).length + n * k := by rw [h]; ring
      simp only [List.flatMap_cons, this, List.drop_append, List.getElem_cons_succ]
      rw [List.drop_eq_nil_of_le (by omega), List.nil_append, Nat.add_sub_cancel_left]
      exact ih k (by simpa using hk)

theorem length_recordBytes (p : F64 × F64) : (leBytes 8 p.1 ++ leBytes 8 p.2).length = 16 := by simp

/-- `BYTE[i]` after `BYTE[0 ..] <- bs`. -/
theorem byteElem_setByteElems (s : State) (bs : List Byte) (i : Nat) (h : i < bs.length) :
    (s.setByteElems bs).byteElem i = bs[i] := readByte_writeBytes_inside _ _ _ _ h

/-- `VAL[k]` after `VAL[0 ..] <- ws`. -/
theorem valElem_setValElems (s : State) (ws : List Word) (k : Nat) (h : k < ws.length) :
    (s.setValElems ws).valElem k = ws[k] := by
  have hl := length_flatMap_const ws (leBytes 4) 4 (by simp)
  rw [State.valElem, State.setValElems, readBytes_writeBytes_inside _ _ _ _ _ (by omega),
    take_drop_flatMap _ _ _ (by simp) _ h, ofNat_leValue_leBytes]

/-- `RE[k]` after `RE[0 ..], IM[0 ..] <- ps`. -/
theorem reElem_setSymElems (s : State) (ps : List (F64 × F64)) (k : Nat) (h : k < ps.length) :
    (s.setSymElems ps).reElem k = ps[k].1 := by
  have hl := length_flatMap_const ps (fun p => leBytes 8 p.1 ++ leBytes 8 p.2) 16 length_recordBytes
  have ht := take_drop_flatMap ps (fun p => leBytes 8 p.1 ++ leBytes 8 p.2) 16 length_recordBytes k h
  have : ((ps.flatMap fun p => leBytes 8 p.1 ++ leBytes 8 p.2).drop (16 * k)).take 8 = leBytes 8 ps[k].1 := by
    have := congrArg (List.take 8) ht
    rwa [List.take_take, List.take_left' (by simp)] at this
  rw [State.reElem, State.setSymElems, readBytes_writeBytes_inside _ _ _ _ _ (by omega), this,
    ofNat_leValue_leBytes64]

/-- `IM[k]` after `RE[0 ..], IM[0 ..] <- ps`. -/
theorem imElem_setSymElems (s : State) (ps : List (F64 × F64)) (k : Nat) (h : k < ps.length) :
    (s.setSymElems ps).imElem k = ps[k].2 := by
  have hl := length_flatMap_const ps (fun p => leBytes 8 p.1 ++ leBytes 8 p.2) 16 length_recordBytes
  have ht := take_drop_flatMap ps (fun p => leBytes 8 p.1 ++ leBytes 8 p.2) 16 length_recordBytes k h
  have : ((ps.flatMap fun p => leBytes 8 p.1 ++ leBytes 8 p.2).drop (16 * k + 8)).take 8 = leBytes 8 ps[k].2 := by
    have := congrArg (List.drop 8) ht
    rwa [List.drop_take, List.drop_drop, List.drop_left' (by simp)] at this
  rw [State.imElem, State.setSymElems, Nat.add_assoc, readBytes_writeBytes_inside _ _ _ _ _ (by omega), this,
    ofNat_leValue_leBytes64]

/-- Elements read through equal memories are equal. -/
theorem elems_congr {s t : State} (hm : t.mem = s.mem) (he : t.epoch = s.epoch) (k : Nat) :
    t.byteElem k = s.byteElem k ∧ t.valElem k = s.valElem k ∧ t.reElem k = s.reElem k ∧ t.imElem k = s.imElem k := by
  simp [State.byteElem, State.valElem, State.reElem, State.imElem, readBytes_congr hm he, readByte_congr hm he]

end Sys2Proof.Machine
end

