-- ==== Sys2Proof/Laws/Bits.lean ====
section
/-! SUPPORT. Bit streams and counts (00_scope.md R9, R10; 40_bitpacker.md R111 to R114). -/

namespace Sys2Proof.Machine

/-- `ceil(a/b)` from below and above (R10). -/
theorem ceilDiv_bounds (a b : Nat) (hb : 0 < b) : a ≤ ceilDiv a b * b ∧ ceilDiv a b * b < a + b := by
  have h1 := Nat.div_add_mod (a + b - 1) b
  have h2 := Nat.mod_lt (a + b - 1) hb
  have h3 : b * ((a + b - 1) / b) = (a + b - 1) / b * b := Nat.mul_comm _ _
  simp only [ceilDiv]
  omega

theorem bitsValue_succ (n : Nat) (bit : Nat → Bool) :
    bitsValue (n + 1) bit = 2 * bitsValue n bit + (bit n).toNat := by
  simp [bitsValue, List.range_succ, List.foldl_append]

/-- `n` bits write a number below `2^n`. -/
theorem bitsValue_lt (n : Nat) (bit : Nat → Bool) : bitsValue n bit < 2 ^ n := by
  induction n with
  | zero => simp [bitsValue]
  | succ n ih =>
    rw [bitsValue_succ, Nat.pow_succ]
    have := Bool.toNat_lt (bit n)
    omega

/-- The first bit is the most significant one. -/
theorem testBit_bitsValue (n : Nat) (bit : Nat → Bool) (i : Nat) :
    (bitsValue n bit).testBit i = (decide (i < n) && bit (n - 1 - i)) := by
  induction n generalizing i with
  | zero => simp [bitsValue]
  | succ n ih =>
    rw [bitsValue_succ]
    cases i with
    | zero => cases h : bit n <;> simp [h]
    | succ i =>
      have : (2 * bitsValue n bit + (bit n).toNat) / 2 = bitsValue n bit := by
        have := Bool.toNat_lt (bit n); omega
      rw [Nat.testBit_succ, this, ih]
      simp [show n - (i + 1) = n - 1 - i by omega]

/-- Bit `i` of the value PACK makes (R111, R112). -/
theorem getLsbD_packValue (n : Nat) (bs : List Byte) (k i : Nat) (hn : n ≤ 32) :
    (packValue n bs k).getLsbD i = (decide (i < n) && streamBit bs (k * n + (n - 1 - i))) := by
  simp only [packValue, BitVec.getLsbD_ofNat, testBit_bitsValue]
  by_cases h : i < n
  · simp [h, show i < 32 by omega]
  · simp [h]

/-- Bit `7-i` of the byte UNPACK makes (R114): stream bit `8m + i`. -/
theorem getLsbD_unpackByte (n : Nat) (ws : List Word) (m i : Nat) (hi : i < 8) :
    (unpackByte n ws m).getLsbD (7 - i) = unpackBit n ws (8 * m + i) := by
  simp only [unpackByte, BitVec.getLsbD_ofNat, testBit_bitsValue]
  simp [show 7 - i < 8 by omega, show 7 - (7 - i) = i by omega]

/-- A stream bit of bytes that are listed one by one (R9). -/
theorem streamBit_map (f : Nat → Byte) (len i : Nat) :
    streamBit ((List.range len).map f) i = (decide (i < 8 * len) && (f (i / 8)).getLsbD (7 - i % 8)) := by
  by_cases h : i < 8 * len
  · have : i / 8 < len := by omega
    simp [streamBit, h, this]
  · have : len ≤ i / 8 := by omega
    simp [streamBit, h, this]

/-- A bit of words that are listed one by one (R114). -/
theorem unpackBit_map (n : Nat) (f : Nat → Word) (c i : Nat) (hn : 0 < n) :
    unpackBit n ((List.range c).map f) i = (decide (i < c * n) && (f (i / n)).getLsbD (n - 1 - i % n)) := by
  by_cases h : i < c * n
  · have : i / n < c := (Nat.div_lt_iff_lt_mul hn).2 h
    simp [unpackBit, h, this]
  · have : c ≤ i / n := by rw [Nat.le_div_iff_mul_le hn]; omega
    simp [unpackBit, h, this]

end Sys2Proof.Machine
end

