-- ==== Sys2Proof/Laws/Bus.lean ====
section
/-! SUPPORT. Host transactions: the route of an access and everything a transaction can do (20_memory.md R61 to R65,
70_reset_and_hazards.md R250, R251). -/

namespace Sys2Proof.Machine

theorem route_unmapped (p : Params) (addr : Word) (size : Size) (j : Nat) (hj : j < size.bytes)
    (h : mappedAddr p (addr.toNat + j) = false) : route p addr size = .unmapped := by
  have : ((List.range size.bytes).all fun j => mappedAddr p (addr.toNat + j)) = false := by
    rw [List.all_eq_false]
    exact ⟨j, by simpa using hj, by simp [h]⟩
  simp [route, this]

theorem route_mapped (p : Params) (addr : Word) (size : Size)
    (h : ∀ j, j < size.bytes → mappedAddr p (addr.toNat + j) = true) :
    route p addr size =
      if addr.toNat < Config.regsBytes then
        if size = .four ∧ addr.toNat % 4 = 0 then .register addr.toNat else .illegal
      else if addr.toNat % size.bytes = 0 then .buffer else .illegal := by
  have : ((List.range size.bytes).all fun j => mappedAddr p (addr.toNat + j)) = true := by
    rw [List.all_eq_true]; intro j hj; exact h j (by simpa using hj)
  simp [route, this]

/-- An aligned 4-byte access below 0x1000 is a register access (R64). -/
theorem route_register (p : Params) (addr : Word) (h : addr.toNat < 0x1000) (ha : addr.toNat % 4 = 0) :
    route p addr .four = .register addr.toNat := by
  rw [route_mapped]
  · simp [Config.regsBytes, h, ha]
  · intro j hj
    have : j < 4 := hj
    have : addr.toNat + j < Config.regsBytes := by simp only [Config.regsBytes]; omega
    simp [mappedAddr, this]

/-- The buffer windows in numbers (R61). -/
theorem bufferAddr_iff (p : Params) (a : Nat) :
    bufferAddr p a = true ↔ (0x10000 ≤ a ∧ a < 0x10000 + p.byteCap) ∨ (0x100000 ≤ a ∧ a < 0x100000 + 4 * p.valCap) ∨
      (0x1000000 ≤ a ∧ a < 0x1000000 + 16 * p.symCap) := by
  simp only [bufferAddr, Bool.or_eq_true, Bool.and_eq_true, decide_eq_true_eq, or_assoc]
  rfl

/-- The mapped addresses in numbers (R61). -/
theorem mappedAddr_iff (p : Params) (a : Nat) : mappedAddr p a = true ↔ a < 0x1000 ∨ bufferAddr p a = true := by
  simp only [mappedAddr, Bool.or_eq_true, decide_eq_true_eq]
  rfl

/-- A buffer byte lies above the register window. -/
theorem bufferAddr_ge {p : Params} {a : Nat} (h : bufferAddr p a = true) : Config.regsBytes ≤ a := by
  rw [bufferAddr_iff] at h
  simp only [Config.regsBytes]
  omega

/-- An aligned access to buffer bytes (R65). -/
theorem route_buffer (p : Params) (addr : Word) (size : Size) (ha : addr.toNat % size.bytes = 0)
    (h : ∀ j, j < size.bytes → bufferAddr p (addr.toNat + j) = true) : route p addr size = .buffer := by
  have h0 := bufferAddr_ge (h 0 (by cases size <;> decide))
  rw [route_mapped _ _ _ (fun j hj => by simp [mappedAddr, h j hj])]
  simp [show ¬ addr.toNat < Config.regsBytes by omega, ha]

/-- A buffer route has all its bytes in the buffers. -/
theorem bufferAddr_of_route {p : Params} {addr : Word} {size : Size} (h : route p addr size = .buffer) :
    ∀ j, j < size.bytes → bufferAddr p (addr.toNat + j) = true := by
  intro j hj
  by_cases hm : ∀ j, j < size.bytes → mappedAddr p (addr.toNat + j) = true
  · rw [route_mapped _ _ _ hm] at h
    split_ifs at h with h1 h2 h3
    have := hm j hj
    simp only [mappedAddr, Bool.or_eq_true, decide_eq_true_eq] at this
    exact this.resolve_left (by omega)
  · push Not at hm
    obtain ⟨i, hi, hmi⟩ := hm
    rw [route_unmapped _ _ _ i hi (by simpa using hmi)] at h
    cases h

/-- Everything a transaction can do to the state: nothing, a refusal, a register write, a store into a buffer; the last two
only as the busy rules R250 and R251 allow. -/
theorem transact_cases (s : State) (tx : Txn) :
    (s.transact tx).1 = s ∨
    (s.status.busy = true ∧ s.transact tx = (s.refuse, failedReply .slverr)) ∨
    (∃ addr v r, tx = .write addr .four v ∧ Reg.ofOffset addr.toNat = some r ∧
      (r.guarded = false ∨ s.status.busy = false) ∧
      s.transact tx = (s.writeReg r v, { resp := .okay, data := 0#32 })) ∨
    (∃ addr size v, tx = .write addr size v ∧ s.status.busy = false ∧ route s.params addr size = .buffer ∧
      s.transact tx = (s.writeBytes addr.toNat (leBytes size.bytes v), { resp := .okay, data := 0#32 })) := by
  cases tx with
  | read addr size =>
    cases hr : route s.params addr size with
    | unmapped => left; simp [State.transact, State.busRead, hr]
    | illegal => left; simp [State.transact, State.busRead, hr]
    | register offset =>
      left
      cases ho : Reg.ofOffset offset <;> simp [State.transact, State.busRead, hr, ho]
    | buffer =>
      cases hb : s.status.busy
      · left; simp [State.transact, State.busRead, hr, hb]
      · exact .inr (.inl ⟨rfl, by simp [State.transact, State.busRead, hr, hb]⟩)
  | write addr size v =>
    cases hr : route s.params addr size with
    | unmapped => left; simp [State.transact, State.busWrite, hr]
    | illegal => left; simp [State.transact, State.busWrite, hr]
    | register offset =>
      have ho : offset = addr.toNat ∧ size = .four := by
        simp only [route] at hr
        split_ifs at hr with h1 h2 h3
        exact ⟨(Route.register.inj hr).symm, h3.1⟩
      obtain ⟨rfl, rfl⟩ := ho
      cases hreg : Reg.ofOffset addr.toNat with
      | none => left; simp [State.transact, State.busWrite, hr, hreg]
      | some r =>
        by_cases hg : r.guarded = true ∧ s.status.busy = true
        · exact .inr (.inl ⟨hg.2, by simp [State.transact, State.busWrite, hr, hreg, hg]⟩)
        · have hg' : r.guarded = false ∨ s.status.busy = false := by
            cases h1 : r.guarded <;> cases h2 : s.status.busy <;> simp_all
          refine .inr (.inr (.inl ⟨addr, v, r, rfl, hreg, hg', ?_⟩))
          simp [State.transact, State.busWrite, hr, hreg, hg]
    | buffer =>
      cases hb : s.status.busy
      · exact .inr (.inr (.inr ⟨addr, size, v, rfl, rfl, hr, by simp [State.transact, State.busWrite, hr, hb]⟩))
      · exact .inr (.inl ⟨rfl, by simp [State.transact, State.busWrite, hr, hb]⟩)

/-- A transaction keeps the parameters, the reset count and the model's own fields. -/
theorem transact_frame (s : State) (tx : Txn) :
    (s.transact tx).1.params = s.params ∧ (s.transact tx).1.epoch = s.epoch ∧
      (s.transact tx).1.script = s.script ∧ (s.transact tx).1.reply = s.reply := by
  rcases transact_cases s tx with h | ⟨_, h⟩ | ⟨addr, v, r, _, _, _, h⟩ | ⟨addr, size, v, _, _, _, h⟩
  · rw [h]; exact ⟨rfl, rfl, rfl, rfl⟩
  · rw [h]; exact ⟨rfl, rfl, rfl, rfl⟩
  · rw [h]; cases r <;> exact ⟨rfl, rfl, rfl, rfl⟩
  · rw [h]; exact ⟨rfl, rfl, rfl, rfl⟩

/-- The register at an address of the table. -/
theorem transact_write_register (s : State) (addr v : Word) (r : Reg) (h : addr.toNat < 0x1000)
    (ha : addr.toNat % 4 = 0) (hr : Reg.ofOffset addr.toNat = some r)
    (hb : r.guarded = false ∨ s.status.busy = false) :
    s.transact (.write addr .four v) = (s.writeReg r v, { resp := .okay, data := 0#32 }) := by
  rcases hb with hb | hb <;>
    simp [State.transact, State.busWrite, route_register _ _ h ha, hr, hb]

theorem transact_read_register (s : State) (addr : Word) (r : Reg) (h : addr.toNat < 0x1000)
    (ha : addr.toNat % 4 = 0) (hr : Reg.ofOffset addr.toNat = some r) :
    s.transact (.read addr .four) = (s, { resp := .okay, data := s.readReg r }) := by
  simp [State.transact, State.busRead, route_register _ _ h ha, hr]

end Sys2Proof.Machine
end

