-- ==== Sys2Proof/Laws/Commands.lean ====
section
/-! SUPPORT. What each command's checks let through, what its body leaves in the buffers, and how it completes
(60_exceptions.md R202, R206, R207). -/

namespace Sys2Proof.Machine

/-! ### Completion -/

/-- Completion fails with the error and nothing else, or succeeds on the state the command made. -/
theorem complete_cases (s : State) (r : Except ErrCode State) :
    (∃ e, r = .error e ∧ s.complete r = s.fail e) ∨ (∃ t, r = .ok t ∧ s.complete r = t.succeed) := by
  cases r with
  | error e => exact .inl ⟨e, rfl, rfl⟩
  | ok t => exact .inr ⟨t, rfl, rfl⟩

@[simp] theorem complete_error (s : State) (e : ErrCode) : s.complete (.error e) = s.fail e := rfl
@[simp] theorem complete_ok (s t : State) : s.complete (.ok t) = t.succeed := rfl
@[simp] theorem complete_busy (s : State) (r : Except ErrCode State) : (s.complete r).status.busy = false := by
  cases r <;> rfl
@[simp] theorem complete_done (s : State) (r : Except ErrCode State) : (s.complete r).status.done = true := by
  cases r <;> rfl

/-- Every meaning is the completion of its command. -/
theorem exec_eq_complete (i : Instr) (s : State) :
    ∃ r, exec i s = .next (s.complete r) ∧
      (∀ t, r = .ok t → t = { s with
        mem := t.mem, byteLen := t.byteLen, valCnt := t.valCnt, symCnt := t.symCnt, sigLen := t.sigLen
        status := { s.status with
          truncSeen := t.status.truncSeen, oorSeen := t.status.oorSeen, nfSeen := t.status.nfSeen } }) := by
  cases i with
  | nop n => exact ⟨_, rfl, by rintro t ⟨⟩; rfl⟩
  | pack n => exact ⟨_, rfl, by intro t h; simp only [packCommand] at h; split_ifs at h; cases h; rfl⟩
  | map n => exact ⟨_, rfl, by intro t h; simp only [mapCommand] at h; split_ifs at h; cases h; rfl⟩
  | slice n => exact ⟨_, rfl, by intro t h; simp only [sliceCommand] at h; split_ifs at h; cases h; rfl⟩
  | unpack n => exact ⟨_, rfl, by intro t h; simp only [unpackCommand] at h; split_ifs at h; cases h; rfl⟩
  | mod n => exact ⟨_, rfl, by intro t h; simp only [modCommand] at h; split_ifs at h; cases h; rfl⟩
  | demod n => exact ⟨_, rfl, by intro t h; simp only [demodCommand] at h; split_ifs at h; cases h; rfl⟩
  | ser n => exact ⟨_, rfl, by intro t h; simp only [serCommand] at h; split_ifs at h; cases h; rfl⟩
  | deser n => exact ⟨_, rfl, by intro t h; simp only [deserCommand] at h; split_ifs at h <;> cases h <;> rfl⟩

/-! ### What the checks let through -/

/-- One check of a command: it must not fail. -/
theorem if_error_eq_ok {c : Prop} [Decidable c] (e : ErrCode) (r : Except ErrCode State) (t : State) :
    (if c then .error e else r) = .ok t ↔ ¬c ∧ r = .ok t := by
  by_cases h : c <;> simp [h]

theorem packCommand_ok (n : Nat) (s t : State) :
    packCommand n s = .ok t ↔ badBps s n = false ∧ s.byteLen.toNat ≤ s.params.byteCap ∧
      packCount n s.byteLen.toNat ≤ s.params.valCap ∧ t = packBody n s.byteLen.toNat s := by
  simp only [packCommand, if_error_eq_ok, Except.ok.injEq, Nat.not_lt, Bool.not_eq_true]
  rw [eq_comm (b := t)]

theorem unpackCommand_ok (n : Nat) (s t : State) :
    unpackCommand n s = .ok t ↔ badBps s n = false ∧ s.valCnt.toNat ≤ s.params.valCap ∧
      unpackCount n s.valCnt.toNat ≤ s.params.byteCap ∧ t = unpackBody n s.valCnt.toNat s := by
  simp only [unpackCommand, if_error_eq_ok, Except.ok.injEq, Nat.not_lt, Bool.not_eq_true]
  rw [eq_comm (b := t)]

theorem mapCommand_ok (n : Nat) (s t : State) :
    mapCommand n s = .ok t ↔ badMapBps s n = false ∧ s.valCnt.toNat ≤ s.params.valCap ∧
      s.valCnt.toNat ≤ s.params.symCap ∧ t = mapBody n s.valCnt.toNat s := by
  simp only [mapCommand, if_error_eq_ok, Except.ok.injEq, Nat.not_lt, Bool.not_eq_true]
  rw [eq_comm (b := t)]

theorem sliceCommand_ok (n : Nat) (s t : State) :
    sliceCommand n s = .ok t ↔ badSliceBps s n = false ∧ s.symCnt.toNat ≤ s.params.symCap ∧
      s.symCnt.toNat ≤ s.params.valCap ∧ t = sliceBody n s.symCnt.toNat s := by
  simp only [sliceCommand, if_error_eq_ok, Except.ok.injEq, Nat.not_lt, Bool.not_eq_true]
  rw [eq_comm (b := t)]

theorem modCommand_ok (n : Nat) (s t : State) :
    modCommand n s = .ok t ↔ badMapBps s n = false ∧ s.byteLen.toNat ≤ s.params.byteCap ∧
      packCount n s.byteLen.toNat ≤ s.params.valCap ∧ packCount n s.byteLen.toNat ≤ s.params.symCap ∧
      t = mapBody n (packCount n s.byteLen.toNat) (packBody n s.byteLen.toNat s) := by
  simp only [modCommand, if_error_eq_ok, Except.ok.injEq, Nat.not_lt, Bool.not_eq_true]
  rw [eq_comm (b := t)]

theorem demodCommand_ok (n : Nat) (s t : State) :
    demodCommand n s = .ok t ↔ badSliceBps s n = false ∧ s.symCnt.toNat ≤ s.params.symCap ∧
      s.symCnt.toNat ≤ s.params.valCap ∧ unpackCount n s.symCnt.toNat ≤ s.params.byteCap ∧
      t = unpackBody n s.symCnt.toNat (sliceBody n s.symCnt.toNat s) := by
  simp only [demodCommand, if_error_eq_ok, Except.ok.injEq, Nat.not_lt, Bool.not_eq_true]
  rw [eq_comm (b := t)]

theorem badBps_eq_false (s : State) (n : Nat) : badBps s n = false ↔ 1 ≤ n ∧ n ≤ s.params.maxBps := by
  simp [badBps, Nat.one_le_iff_ne_zero]

theorem badMapBps_eq_false (s : State) (n : Nat) :
    badMapBps s n = false ↔ badBps s n = false ∧ (n % 2 = 0 ∨ s.ctrl.legacyOdd = true) := by
  have := Nat.mod_two_eq_zero_or_one n
  cases h : s.ctrl.legacyOdd <;> simp [badMapBps, h]

theorem badSliceBps_eq_false (s : State) (n : Nat) :
    badSliceBps s n = false ↔ badMapBps s n = false ∧ (n % 2 = 0 ∨ s.ctrl.clamp = false) := by
  have := Nat.mod_two_eq_zero_or_one n
  cases h : s.ctrl.clamp <;> simp [badSliceBps, h]

/-! ### What the bodies leave -/

theorem length_valBytes (ws : List Word) : (ws.flatMap (leBytes 4)).length = 4 * ws.length :=
  length_flatMap_const ws (leBytes 4) 4 (by simp)

theorem length_symBytes (ps : List (F64 × F64)) :
    (ps.flatMap fun p => leBytes 8 p.1 ++ leBytes 8 p.2).length = 16 * ps.length :=
  length_flatMap_const ps _ 16 length_recordBytes

theorem packBody_valElem (n len k : Nat) (s : State) (h : k < packCount n len) :
    (packBody n len s).valElem k = packValue n ((List.range len).map s.byteElem) k := by
  rw [(elems_congr (packBody_mem s n len) (packBody_epoch s n len) k).2.1, valElem_setValElems _ _ _ (by simpa using h)]
  simp

theorem packBody_readByte_outside (n len a : Nat) (s : State)
    (h : a < Config.valBase ∨ Config.valBase + 4 * packCount n len ≤ a) :
    (packBody n len s).readByte a = s.readByte a := by
  rw [readByte_congr (packBody_mem s n len) (packBody_epoch s n len)]
  exact readByte_writeBytes_outside _ _ _ _ (by rw [length_valBytes]; simpa using h)

theorem unpackBody_byteElem (n c m : Nat) (s : State) (h : m < unpackCount n c) :
    (unpackBody n c s).byteElem m = unpackByte n ((List.range c).map s.valElem) m := by
  rw [(elems_congr (unpackBody_mem s n c) (unpackBody_epoch s n c) m).1, byteElem_setByteElems _ _ _ (by simpa using h)]
  simp

theorem unpackBody_readByte_outside (n c a : Nat) (s : State)
    (h : a < Config.byteBase ∨ Config.byteBase + unpackCount n c ≤ a) :
    (unpackBody n c s).readByte a = s.readByte a := by
  rw [readByte_congr (unpackBody_mem s n c) (unpackBody_epoch s n c)]
  exact readByte_writeBytes_outside _ _ _ _ (by simpa using h)

theorem mapBody_reElem (n c k : Nat) (s : State) (h : k < c) :
    (mapBody n c s).reElem k = (mapPoint s.rotCos s.rotSin (side n) (valueField (s.valElem k))).1 := by
  rw [(elems_congr (mapBody_mem s n c) (mapBody_epoch s n c) k).2.2.1, reElem_setSymElems _ _ _ (by simpa using h)]
  simp

theorem mapBody_imElem (n c k : Nat) (s : State) (h : k < c) :
    (mapBody n c s).imElem k = (mapPoint s.rotCos s.rotSin (side n) (valueField (s.valElem k))).2 := by
  rw [(elems_congr (mapBody_mem s n c) (mapBody_epoch s n c) k).2.2.2, imElem_setSymElems _ _ _ (by simpa using h)]
  simp

theorem mapBody_readByte_outside (n c a : Nat) (s : State)
    (h : a < Config.symBase ∨ Config.symBase + 16 * c ≤ a) :
    (mapBody n c s).readByte a = s.readByte a := by
  rw [readByte_congr (mapBody_mem s n c) (mapBody_epoch s n c)]
  exact readByte_writeBytes_outside _ _ _ _ (by rw [length_symBytes]; simpa using h)

theorem sliceBody_valElem (n c k : Nat) (s : State) (h : k < c) :
    (sliceBody n c s).valElem k = (s.sliceElem n k).word := by
  rw [(elems_congr (sliceBody_mem s n c) (sliceBody_epoch s n c) k).2.1, valElem_setValElems _ _ _ (by simpa using h)]
  simp

theorem sliceBody_readByte_outside (n c a : Nat) (s : State)
    (h : a < Config.valBase ∨ Config.valBase + 4 * c ≤ a) :
    (sliceBody n c s).readByte a = s.readByte a := by
  rw [readByte_congr (sliceBody_mem s n c) (sliceBody_epoch s n c)]
  exact readByte_writeBytes_outside _ _ _ _ (by rw [length_valBytes]; simpa using h)

/-- The flags a SLICE adds to STATUS. -/
theorem sliceBody_any_oor (n c : Nat) (s : State) :
    ((List.range c).map (s.sliceElem n)).any SliceResult.oor = true ↔ ∃ k < c, (s.sliceElem n k).oor = true := by
  simp

theorem sliceBody_any_nf (n c : Nat) (s : State) :
    ((List.range c).map (s.sliceElem n)).any SliceResult.nf = true ↔ ∃ k < c, (s.sliceElem n k).nf = true := by
  simp

/-! ### The slicer's word (41_constellation.md R142) -/

theorem word_getLsbD_31 (r : SliceResult) : r.word.getLsbD 31 = r.nf := by
  simp only [SliceResult.word, BitVec.getLsbD_append]; cases r.nf <;> rfl

theorem word_getLsbD_30 (r : SliceResult) : r.word.getLsbD 30 = r.oor := by
  simp only [SliceResult.word, BitVec.getLsbD_append]; cases r.oor <;> rfl

theorem valueField_eq (w : Word) : valueField w = w.toNat % 2 ^ 16 := by
  simp [valueField, BitVec.extractLsb'_toNat]

theorem word_value (r : SliceResult) (h : r.val < 2 ^ 16) : valueField r.word = r.val := by
  rw [valueField, SliceResult.word, BitVec.extractLsb'_append_eq_of_add_le (by decide)]
  simp [BitVec.toNat_ofNat]
  omega

end Sys2Proof.Machine
end

