-- ==== Sys2Proof/Laws/Float.lean ====
section
/-! SUPPORT. What each floating-point operation can do (00_scope.md R11): the classes of a pattern, which operands give
a non-finite result, and what the rounding of an exact result is. -/

namespace Sys2Proof.F64

/-! ### Classes -/

/-- A pattern is finite, a NaN or an infinity. -/
theorem isFinite_eq (x : F64) : isFinite x = (!isNaN x && !isInf x) := by
  cases h : expField x == 0x7FF <;> cases h2 : fracField x == 0 <;> simp [isFinite, isNaN, isInf, bne, h, h2]

theorem infinity_not_finite (neg : Bool) : isFinite (infinity neg) = false := by cases neg <;> decide

theorem canonicalNaN_not_finite : isFinite canonicalNaN = false := by decide

theorem expField_lt (x : F64) : expField x < 2048 := (x.extractLsb' 52 11).isLt

theorem fracField_lt (x : F64) : fracField x < 2 ^ 52 := (x.extractLsb' 0 52).isLt

theorem expField_negate (x : F64) : expField (negate x) = expField x := by
  simp [expField, negate, BitVec.extractLsb'_xor]

theorem fracField_negate (x : F64) : fracField (negate x) = fracField x := by
  simp [fracField, negate, BitVec.extractLsb'_xor]

theorem sign_negate (x : F64) : sign (negate x) = !sign x := by
  simp [sign, negate]

theorem isFinite_negate (x : F64) : isFinite (negate x) = isFinite x := by
  simp [isFinite, expField_negate]

theorem units_negate (x : F64) : units (negate x) = units x := by
  simp [units, expField_negate, fracField_negate]

theorem toInt_negate (x : F64) : toInt (negate x) = -toInt x := by
  cases h : sign x <;> simp [toInt, sign_negate, units_negate, h]

/-! ### The operations -/

/-- The product of finite values is the rounded exact product. -/
theorem fmul_finite (x y : F64) (hx : isFinite x = true) (hy : isFinite y = true) :
    fmul x y = round (sign x != sign y) (units x * units y) 1074 := by
  rw [isFinite_eq, Bool.and_eq_true] at hx hy
  simp_all [fmul]

/-- The sum of finite values is the rounded exact sum. -/
theorem fadd_finite (x y : F64) (hx : isFinite x = true) (hy : isFinite y = true) :
    fadd x y = if toInt x + toInt y = 0 then round (sign x && sign y) 0 0
      else round (decide (toInt x + toInt y < 0)) (toInt x + toInt y).natAbs 0 := by
  rw [isFinite_eq, Bool.and_eq_true] at hx hy
  simp_all [fadd]

/-- A product with a NaN or an infinity is one. -/
theorem fmul_not_finite (x y : F64) (h : isFinite x = false ∨ isFinite y = false) : isFinite (fmul x y) = false := by
  rw [isFinite_eq, isFinite_eq] at h
  rw [fmul]
  split
  · exact canonicalNaN_not_finite
  · split
    · split
      · exact canonicalNaN_not_finite
      · exact infinity_not_finite _
    · simp_all

/-- A sum with a NaN or an infinity is one. -/
theorem fadd_not_finite (x y : F64) (h : isFinite x = false ∨ isFinite y = false) : isFinite (fadd x y) = false := by
  rw [isFinite_eq x, isFinite_eq y] at h
  rw [fadd]
  split
  · exact canonicalNaN_not_finite
  · split
    · split
      · exact canonicalNaN_not_finite
      · rw [isFinite_eq]; simp_all
    · split
      · rw [isFinite_eq]; simp_all
      · simp_all

theorem fsub_not_finite (x y : F64) (h : isFinite x = false ∨ isFinite y = false) : isFinite (fsub x y) = false :=
  fadd_not_finite _ _ (by rwa [isFinite_negate])

/-! ### Rounding -/

/-- `roundShift` is within half of `2^sh` of `m`; at exactly half it is even. -/
theorem roundShift_bounds (m sh : Nat) :
    2 * m ≤ (2 * roundShift m sh + 1) * 2 ^ sh ∧ 2 * roundShift m sh * 2 ^ sh ≤ 2 * m + 2 ^ sh ∧
      ((2 * m = (2 * roundShift m sh + 1) * 2 ^ sh ∨ 2 * roundShift m sh * 2 ^ sh = 2 * m + 2 ^ sh) →
        roundShift m sh % 2 = 0) := by
  have hd := Nat.div_add_mod m (2 ^ sh)
  have hm := Nat.mod_lt m (Nat.two_pow_pos sh)
  have hp := Nat.two_pow_pos sh
  simp only [roundShift]
  generalize m / 2 ^ sh = q at *
  generalize m % 2 ^ sh = r at *
  generalize 2 ^ sh = p at *
  have e : (2 * q + 1) * p = 2 * (p * q) + p := by ring
  have e' : 2 * (q + 1) * p = 2 * (p * q) + 2 * p := by ring
  have e'' : 2 * q * p = 2 * (p * q) := by ring
  have e3 : (2 * (q + 1) + 1) * p = 2 * (p * q) + 3 * p := by ring
  split
  · rw [e', e3]; omega
  · rw [e, e'']; omega

/-- A magnitude that is a multiple of its rounding place is not changed by rounding. -/
theorem roundShift_mul (k sh : Nat) : roundShift (k * 2 ^ sh) sh = k := by
  have hp := Nat.two_pow_pos sh
  simp only [roundShift, Nat.mul_div_cancel _ hp, Nat.mul_mod_left]
  simp; omega

/-- `RoundHalfAway` of a negative value is that of the positive one, negated. -/
theorem roundHalfAway_negate (t : F64) : roundHalfAway (negate t) = -roundHalfAway t := by
  rw [roundHalfAway, roundHalfAway, sign_negate, units_negate]
  generalize (((units t + 2 ^ 1073) / 2 ^ 1074 : Nat) : Int) = q
  cases sign t <;> simp

end Sys2Proof.F64
end

