-- ==== Sys2Proof/Laws/Constellation.lean ====
section
/-! SUPPORT. The constellation's shared operations (41_constellation.md): the integer square root's search, the points MAP
makes, the slicer's decision. -/

namespace Sys2Proof.Machine

/-! ### Geometry -/

/-- The search of `isqrt` keeps `acc² ≤ m < (acc + 2^k)²` down to `k = 0` (00_scope.md R10). -/
theorem isqrtFrom_spec (m k acc : Nat) (h1 : acc * acc ≤ m) (h2 : m < (acc + 2 ^ k) * (acc + 2 ^ k)) :
    isqrtFrom m k acc * isqrtFrom m k acc ≤ m ∧ m < (isqrtFrom m k acc + 1) * (isqrtFrom m k acc + 1) := by
  induction k generalizing acc with
  | zero => exact ⟨h1, by simpa [isqrtFrom] using h2⟩
  | succ k ih =>
    rw [isqrtFrom]
    split
    · next h => exact ih _ h (by rw [Nat.add_assoc, ← Nat.two_mul, ← Nat.pow_succ']; exact h2)
    · next h => exact ih _ h1 (Nat.lt_of_not_le h)

/-- A clamped index is an index (R140). -/
theorem clampIndex_bounds (sd : Nat) (x : Int) (h : 1 ≤ sd) : 0 ≤ clampIndex sd x ∧ clampIndex sd x < sd := by
  rw [clampIndex]; omega

/-- An index is clamped to itself (R140). -/
theorem clampIndex_of_mem (sd : Nat) (x : Int) (h1 : 0 ≤ x) (h2 : x < sd) : clampIndex sd x = x := by
  rw [clampIndex]; omega

/-! ### MAP -/

/-- `Canon` leaves the canonical NaN for every NaN and nothing else changed (R143). -/
theorem canon_cases (x : F64) : (F64.isNaN x = true ∧ F64.canon x = F64.canonicalNaN) ∨
    (F64.isNaN x = false ∧ F64.canon x = x) := by
  cases h : F64.isNaN x <;> simp [F64.canon, h]

theorem mapPoint_fst (c s : F64) (sd v : Nat) : (mapPoint c s sd v).1 =
    F64.canon (F64.fsub (F64.fmul (latticeCoord sd (v % sd)) c) (F64.fmul (latticeCoord sd (v / sd)) s)) := rfl

theorem mapPoint_snd (c s : F64) (sd v : Nat) : (mapPoint c s sd v).2 =
    F64.canon (F64.fadd (F64.fmul (latticeCoord sd (v % sd)) s) (F64.fmul (latticeCoord sd (v / sd)) c)) := rfl

/-! ### SLICE -/

/-- The slicer's decision: non-finite, or the value and the out-of-lattice test of the rounded index arguments (R138,
R141). -/
theorem decideSymbol_cases (clamp : Bool) (n : Nat) (tr ti : F64) :
    ((F64.isFinite tr = false ∨ F64.isFinite ti = false) ∧
      decideSymbol clamp n tr ti = { val := 0, oor := false, nf := true }) ∨
    (F64.isFinite tr = true ∧ F64.isFinite ti = true ∧
      decideSymbol clamp n tr ti =
        { val := sliceValue clamp n (F64.roundHalfAway tr) (F64.roundHalfAway ti)
          oor := outOfLattice n (F64.roundHalfAway tr) (F64.roundHalfAway ti)
          nf := false }) := by
  rw [decideSymbol]
  cases h1 : F64.isFinite tr <;> cases h2 : F64.isFinite ti <;> simp

/-- The out-of-lattice test in numbers (R138). -/
theorem outOfLattice_iff (n : Nat) (r i : Int) :
    outOfLattice n r i = true ↔ r < 0 ∨ (side n : Int) ≤ r ∨ i < 0 ∨ (2 ^ n : Int) ≤ i * side n + r := by
  simp [outOfLattice, or_assoc]

/-- The wrap policy's value (R139). -/
theorem sliceValue_wrap (n : Nat) (r i : Int) : (sliceValue false n r i : Int) = (i * side n + r) % 2 ^ n := by
  rw [sliceValue]
  exact Int.toNat_of_nonneg (Int.emod_nonneg _ (by positivity))

/-- The clamp policy's value (R140). -/
theorem sliceValue_clamp (n : Nat) (r i : Int) (h : 1 ≤ side n) :
    (sliceValue true n r i : Int) = clampIndex (side n) i * side n + clampIndex (side n) r := by
  have h1 := clampIndex_bounds (side n) i h
  have h2 := clampIndex_bounds (side n) r h
  rw [sliceValue]
  exact Int.toNat_of_nonneg (by nlinarith)

end Sys2Proof.Machine
end

