-- ==== Sys2Proof/Laws/PerInstr.lean ====
section
/-! SUPPORT. Statements made for every command, one lemma per constructor. -/

namespace Sys2Proof.Laws.TableRow

/-- Under the opcode table's mask 0xFFFFC0FF the command's word is its row's match value, and its BPS field holds the low six bits
of `n` (30_encoding.md R90, R94). -/
def Statement (i : Instr) : Prop :=
  encode i &&& 0xFFFFC0FF#32 = i.opcode.zeroExtend 32 ∧ bpsField (encode i) = i.bps % 64

theorem of_fields (b : BitVec 6) (op : BitVec 8) (h : op.toNat < 9) :
    (0#18 ++ b ++ op : BitVec 32) &&& 0xFFFFC0FF#32 = op.zeroExtend 32 ∧
      bpsField (0#18 ++ b ++ op : BitVec 32) = b.toNat := by
  have hop : op ∈ [0x00#8, 0x01#8, 0x02#8, 0x03#8, 0x04#8, 0x05#8, 0x06#8, 0x07#8, 0x08#8] := by
    have : ∀ x : BitVec 8, x.toNat < 9 →
        x ∈ [0x00#8, 0x01#8, 0x02#8, 0x03#8, 0x04#8, 0x05#8, 0x06#8, 0x07#8, 0x08#8] := by decide
    exact this op h
  have hb : ∀ b : BitVec 6, ∀ op ∈ [0x00#8, 0x01#8, 0x02#8, 0x03#8, 0x04#8, 0x05#8, 0x06#8, 0x07#8, 0x08#8],
      (0#18 ++ b ++ op : BitVec 32) &&& 0xFFFFC0FF#32 = op.zeroExtend 32 ∧
        bpsField (0#18 ++ b ++ op : BitVec 32) = b.toNat := by decide
  exact hb b op hop

theorem nop (n : Nat) : Statement (.nop n) := of_fields (BitVec.ofNat 6 n) 0x00#8 (by decide)
theorem pack (n : Nat) : Statement (.pack n) := of_fields (BitVec.ofNat 6 n) 0x01#8 (by decide)
theorem map (n : Nat) : Statement (.map n) := of_fields (BitVec.ofNat 6 n) 0x02#8 (by decide)
theorem slice (n : Nat) : Statement (.slice n) := of_fields (BitVec.ofNat 6 n) 0x03#8 (by decide)
theorem unpack (n : Nat) : Statement (.unpack n) := of_fields (BitVec.ofNat 6 n) 0x04#8 (by decide)
theorem mod (n : Nat) : Statement (.mod n) := of_fields (BitVec.ofNat 6 n) 0x05#8 (by decide)
theorem demod (n : Nat) : Statement (.demod n) := of_fields (BitVec.ofNat 6 n) 0x06#8 (by decide)
theorem ser (n : Nat) : Statement (.ser n) := of_fields (BitVec.ofNat 6 n) 0x07#8 (by decide)
theorem deser (n : Nat) : Statement (.deser n) := of_fields (BitVec.ofNat 6 n) 0x08#8 (by decide)

end Sys2Proof.Laws.TableRow
end

