-- ==== Sys2Proof/Laws/Step.lean ====
section
/-! SUPPORT. Everything a step can do (00_scope.md R13): the engine's completion, a host transaction, reset, nothing. -/

namespace Sys2Proof.Machine

/-- The engine's step is always a completion (60_exceptions.md R202); what it completes changes only output fields, as
`exec_eq_complete` says. -/
theorem engineStep_eq_complete (s : State) :
    ∃ r, engineStep s = .next (s.complete r) ∧
      (∀ t, r = .ok t → t = { s with
        mem := t.mem, byteLen := t.byteLen, valCnt := t.valCnt, symCnt := t.symCnt, sigLen := t.sigLen
        status := { s.status with
          truncSeen := t.status.truncSeen, oorSeen := t.status.oorSeen, nfSeen := t.status.nfSeen } }) := by
  cases h : decode s.cmd with
  | ok i => simpa [engineStep, h] using exec_eq_complete i s
  | error e => exact ⟨.error .unsupportedMode, by simp [engineStep, h], by intro t ht; cases ht⟩

/-- The engine moves only on a pending command. -/
theorem engineTurn_cases (s : State) :
    (s.status.busy = false ∧ engineTurn s = .next s) ∨ (s.status.busy = true ∧ engineTurn s = engineStep s) := by
  cases h : s.status.busy
  · exact .inl ⟨rfl, by simp [engineTurn, h]⟩
  · exact .inr ⟨rfl, by simp [engineTurn, h]⟩

/-- One step, event by event. -/
theorem step_cases (s : State) :
    (s.script = [] ∧ step s = engineTurn s) ∨
    (∃ tx rest, s.script = .bus tx :: rest ∧ step s = .next (({ s with script := rest } : State).hostStep tx)) ∨
    (∃ rest, s.script = .wait :: rest ∧ s.status.busy = true ∧ step s = engineStep s) ∨
    (∃ rest, s.script = .wait :: rest ∧ s.status.busy = false ∧
      step s = .next (({ s with script := rest } : State).hostStep (.read statusAddr .four))) ∨
    (∃ rest, s.script = .engine :: rest ∧ step s = engineTurn { s with script := rest }) ∨
    (∃ rest, s.script = .reset :: rest ∧ step s = .next ({ s with script := rest } : State).resetInput) := by
  cases h : s.script with
  | nil => left; simp [step, advance, h]
  | cons e rest =>
    right
    cases e with
    | bus tx => exact .inl ⟨tx, rest, rfl, by simp [step, advance, h]⟩
    | wait =>
      cases hb : s.status.busy
      · exact .inr (.inr (.inl ⟨rest, rfl, rfl, by simp [step, advance, h, hb]⟩))
      · exact .inr (.inl ⟨rest, rfl, rfl, by simp [step, advance, h, hb]⟩)
    | engine => exact .inr (.inr (.inr (.inl ⟨rest, rfl, by simp [step, advance, h]⟩)))
    | reset => exact .inr (.inr (.inr (.inr ⟨rest, rfl, by simp [step, advance, h]⟩)))

/-! ### Runs -/

/-- A run of no steps. -/
theorem run_zero (s : State) : Host.Core.run Sys2Proof.core 0 s = .next s := rfl

/-- A run whose first step answers a next state goes on from it. -/
theorem run_succ {s t : State} (h : step s = .next t) (k : Nat) :
    Host.Core.run Sys2Proof.core (k + 1) s = Host.Core.run Sys2Proof.core k t := by
  have h' : Host.Core.step Sys2Proof.core s = .next t := h
  simp only [Host.Core.run, h']

end Sys2Proof.Machine
end

