-- ==== Sys2Proof/Tests/Slice0.lean ====
section
/-! SUPPORT. The model's own tests: ill-formed commands refused, words of the encoding tables decoded, one or two steps
per command with the results of 95_test_vectors.md, and a witness for the hypotheses of every obligation. -/

namespace Sys2Proof.Tests
open Sys2Proof.Machine

/-! ### Helpers -/

/-- The state after a command; the state itself if there is none. -/
def after (i : Instr) (s : State) : State :=
  match exec i s with
  | .next t => t
  | .fault _ => s
  | .refused _ => s

/-- The state after a step; the state itself if there is none. -/
def afterStep (s : State) : State :=
  match step s with
  | .next t => t
  | .fault _ => s
  | .refused _ => s

/-- The reset state with bytes in BYTE_MEM and BYTE_LEN their number. -/
def withBytes (bs : List Byte) : State := { State.reset.setByteElems bs with byteLen := BitVec.ofNat 32 bs.length }

/-- The reset state with words in VAL_MEM and VAL_CNT their number. -/
def withVals (ws : List Word) : State := { State.reset.setValElems ws with valCnt := BitVec.ofNat 32 ws.length }

/-- The reset state with records in SYM_MEM and SYM_CNT their number. -/
def withSyms (ps : List (F64 × F64)) : State :=
  { State.reset.setSymElems ps with symCnt := BitVec.ofNat 32 ps.length }

/-- The state with LEGACY_ODD = 1. -/
def legacy (s : State) : State := { s with ctrl := { s.ctrl with legacyOdd := true } }

/-- The state with BUSY = 1 and nothing to come. -/
def pending (s : State) : State := { s with status := { s.status with busy := true } }

/-! ### WellFormed: BPS has six bits (30_encoding.md R91) -/

theorem test_wellFormed_bps63 : (Instr.pack 63).WellFormed := by decide
theorem test_illFormed_bps64 : ¬(Instr.pack 64).WellFormed := by decide

/-! ### Decoding: RSV, BPS, OPC written out (30_encoding.md R90, R94; table E) -/

theorem test_decode_nop : decode 0b000000000000000000_111111_00000000#32 = .ok (.nop 63) := by decide
theorem test_decode_pack : decode 0b000000000000000000_000011_00000001#32 = .ok (.pack 3) := by decide
theorem test_decode_map : decode 0b000000000000000000_000010_00000010#32 = .ok (.map 2) := by decide
theorem test_decode_slice : decode 0b000000000000000000_000100_00000011#32 = .ok (.slice 4) := by decide
theorem test_decode_unpack : decode 0b000000000000000000_000100_00000100#32 = .ok (.unpack 4) := by decide
theorem test_decode_mod : decode 0b000000000000000000_000010_00000101#32 = .ok (.mod 2) := by decide
theorem test_decode_demod : decode 0b000000000000000000_000100_00000110#32 = .ok (.demod 4) := by decide
theorem test_decode_ser : decode 0b000000000000000000_000000_00000111#32 = .ok (.ser 0) := by decide
theorem test_decode_deser : decode 0b000000000000000000_000000_00001000#32 = .ok (.deser 0) := by decide
theorem test_decode_opcode9 : decode 0x00000009#32 = .error .reservedOpcode := by decide
theorem test_decode_bit14 : decode 0x00004005#32 = .error .reservedBits := by decide
theorem test_decode_bit31 : decode 0x80000000#32 = .error .reservedBits := by decide
theorem test_table_word : decodeTableWord 32 0x00000406 = some (.demod 4) := by decide
theorem test_disassemble_nop : disassemble 0x00003F00#32 = .withIgnoredBps "NOP" 63 := by decide

/-! ### The commands (95_test_vectors.md part 2; the table is named at each test) -/

-- Table C: NOP from STATUS = 0x001.
theorem test_nop : (after (.nop 0) (pending State.reset)).status.toWord = 0x002#32 := by decide
-- Table P: FF, n = 3.
theorem test_pack_FF : (List.range 3).map (after (.pack 3) (withBytes [0xFF#8])).valElem = [7#32, 7#32, 6#32] := by decide
-- Table P: 12 34 56, n = 5.
theorem test_pack_123456 : (List.range 5).map (after (.pack 5) (withBytes [0x12#8, 0x34#8, 0x56#8])).valElem =
    [0x2#32, 0x8#32, 0x1A#32, 0x5#32, 0xC#32] := by decide
-- Table U: the flag bits are ignored.
theorem test_unpack_flags : (List.range 2).map (after (.unpack 4) (withVals [0x40000001#32, 0x80000000#32, 0xA#32])).byteElem =
    [0x10#8, 0xA0#8] := by decide
-- Table U: five values of six bits.
theorem test_unpack_6 :
    (List.range 4).map (after (.unpack 6) (withVals [0x12#32, 0x34#32, 0x56#32, 0x78#32, 0x9A#32])).byteElem =
      [0x4B#8, 0x45#8, 0xB8#8, 0x68#8] := by decide
-- Table M: n = 4, v = 1, bits 31:16 ignored.
theorem test_map_1 : (after (.map 4) (withVals [0x40000001#32])).reElem 0 = 0xBFCDAFEF5BF10AE0#64 ∧
    (after (.map 4) (withVals [0x40000001#32])).imElem 0 = 0xBFF9064A51418C4A#64 := by decide +kernel
-- Table M: legacy n = 3, v = 6.
theorem test_map_legacy : (after (.map 3) (legacy (withVals [6#32]))).reElem 0 = 0xBFEDA6165507B641#64 ∧
    (after (.map 3) (legacy (withVals [6#32]))).imElem 0 = 0x4003006663E055F2#64 := by decide +kernel
-- Table L: (100, -100) and a NaN, n = 4, wrap.
theorem test_slice_wrap :
    (List.range 2).map (after (.slice 4) (withSyms
      [(0x4059000000000000#64, 0xC059000000000000#64), (0x7FF8000000000000#64, 0#64)])).valElem =
      [0x4000000B#32, 0x80000000#32] := by decide +kernel
-- Table L: (-3, 2), n = 4, clamp.
theorem test_slice_clamp :
    (after (.slice 4) { withSyms [(0xC008000000000000#64, 0x4000000000000000#64)] with
      ctrl := { Ctrl.reset with clamp := true } }).valElem 0 = 0x4000000C#32 := by decide +kernel
-- Table D: FF, n = 3, LEGACY_ODD = 0 and 1.
theorem test_mod_odd : (after (.mod 3) (withBytes [0xFF#8])).status.toWord = 0x106#32 := by decide
theorem test_mod_legacy : (after (.mod 3) (legacy (withBytes [0xFF#8]))).reElem 2 = 0xBFEDA6165507B641#64 := by decide +kernel
-- Table D: MAP(10), MAP(5), the origin, n = 4.
theorem test_demod :
    (List.range 2).map (after (.demod 4) (withSyms [(0x3FD9F504ECFE3F35#64, 0x3FE289091601FC7D#64),
      (0xBFD9F504ECFE3F35#64, 0xBFE289091601FC7D#64), (0#64, 0#64)])).byteElem = [0xA5#8, 0xA0#8] := by decide +kernel
-- Table D: SYM_CNT = 32768: the output check fails.
theorem test_demod_capacity :
    (after (.demod 2) { State.reset with symCnt := 32768#32 }).status.toWord = 0x406#32 := by decide
-- Table Z.
theorem test_ser : (after (.ser 0) { State.reset with symCnt := 8#32 }).sigLen = 128#32 := by decide
theorem test_ser_capacity : (after (.ser 0) { State.reset with symCnt := 32769#32 }).status.toWord = 0x406#32 := by decide
theorem test_deser_corrupt : (after (.deser 0) { State.reset with sigLen := 53#32 }).status.toWord = 0x206#32 := by decide
theorem test_deser_truncated :
    (after (.deser 0) { State.reset with sigLen := 53#32, ctrl := { Ctrl.reset with trunc := true } }).status.toWord =
      0x012#32 := by decide

/-! ### Witnesses: a state and operands that meet all hypotheses of each obligation together; where a hypothesis has several
cases, or an index a range, one for each case and at the ends of the range -/

/-- `s` with the events `es` to come. -/
def coming (s : State) (es : List Event) : State := { s with script := es }

/-- `s` with the command `i` pending. -/
def running (s : State) (i : Instr) : State := pending { s with cmd := encode i }

/-- STATUS with every sticky flag set. -/
def stickyStatus : Status := { Status.reset with ovr := true, truncSeen := true, oorSeen := true, nfSeen := true }

/-- Every parameter at its largest legal value (00_scope.md R6). -/
def largestParams : Params := { maxBps := 16, byteCap := 65536, valCap := 262144, symCap := 1048576 }

theorem witness_DecodeOfEncode : (Instr.nop 0).WellFormed ∧ (Instr.deser 63).WellFormed := by decide

theorem witness_EncodeOfDecode :
    decode 0x00003F00#32 = .ok (.nop 63) ∧ decode 0x00000406#32 = .ok (.demod 4) := by decide

-- A reserved bit, then a reserved opcode, under each of the three scripts.
theorem witness_UnsupportedWordFails (es : List Event) :
    (∃ s : State, s.status.busy = true ∧ s.cmd.extractLsb' 14 18 ≠ 0#18 ∧ s.script = es) ∧
    (∃ s : State, s.status.busy = true ∧ 9 = (s.cmd.extractLsb' 0 8).toNat ∧ s.script = es) :=
  ⟨⟨coming (pending { State.reset with cmd := 0x00004005#32 }) es, rfl,
      show (0x00004005#32).extractLsb' 14 18 ≠ 0#18 by decide, rfl⟩,
   ⟨coming (pending { State.reset with cmd := 0x00000009#32 }) es, rfl,
      show 9 = ((0x00000009#32).extractLsb' 0 8).toNat by decide, rfl⟩⟩

theorem witness_StepRunsDecodedCommand (es : List Event) :
    (coming (running State.reset (.pack 3)) es).status.busy = true ∧
      decode (coming (running State.reset (.pack 3)) es).cmd = .ok (.pack 3) ∧
      (coming (running State.reset (.pack 3)) es).script = es :=
  ⟨rfl, show decode (encode (.pack 3)) = .ok (.pack 3) by decide, rfl⟩

theorem witness_PlacedWordRuns : (Instr.mod 0).WellFormed ∧ (Instr.mod 63).WellFormed := by decide

theorem witness_StepFollowsScript :
    (∃ (s : State) (rest : List Event) (t : Txn), s.script = .bus t :: rest) ∧
    (∃ (s : State) (rest : List Event), s.script = .wait :: rest ∧ s.status.busy = false) ∧
    (∃ (s : State) (rest : List Event), s.script = .engine :: rest ∧ s.status.busy = false) ∧
    (∃ (s : State) (rest : List Event), s.script = .reset :: rest) ∧
    (∃ s : State, s.script = [] ∧ s.status.busy = false) :=
  ⟨⟨coming State.reset [.bus (.read 0x24#32 .four), .wait], [.wait], .read 0x24#32 .four, rfl⟩,
   ⟨coming State.reset [.wait, .engine], [.engine], rfl, rfl⟩, ⟨coming State.reset [.engine], [], rfl, rfl⟩,
   ⟨coming (running State.reset (.pack 3)) [.reset], [], rfl⟩, ⟨State.reset, rfl, rfl⟩⟩

theorem witness_PendingCommandEnds : (coming (running State.reset (.pack 3)) [.wait]).status.busy = true := rfl

theorem witness_CmdThenWaitRunsCommand :
    ∃ (s : State) (i : Instr) (rest : List Event), s.status.busy = false ∧ i.WellFormed ∧
      s.script = assemble [.cmd i, .wait] ++ rest :=
  ⟨coming State.reset (assemble [.cmd (.mod 2), .wait] ++ [.wait]), .mod 2, [.wait], rfl, by decide, rfl⟩

theorem witness_StepKeepsLegalState : ∃ s t : State, s.Inv ∧ step s = .next t :=
  ⟨running (withBytes [0xFF#8]) (.pack 3), _, by decide, rfl⟩

theorem witness_StickyFlagsClearedOnlyByHostOrReset_write :
    ∃ s t : State, step s = .next t ∧ s.status.ovr = true ∧ t.status.ovr = false ∧ s.status.truncSeen = true ∧
      t.status.truncSeen = false ∧ s.status.oorSeen = true ∧ t.status.oorSeen = false ∧ s.status.nfSeen = true ∧
      t.status.nfSeen = false :=
  ⟨coming { State.reset with status := stickyStatus } [.bus (.write 0x24#32 .four 0x78#32)], _, rfl, by decide⟩

theorem witness_StickyFlagsClearedOnlyByHostOrReset_reset :
    ∃ s t : State, step s = .next t ∧ s.status.ovr = true ∧ t.status.ovr = false :=
  ⟨coming { State.reset with status := stickyStatus } [.reset], _, rfl, by decide⟩

theorem witness_DoneRisesOnlyAtCompletion :
    ∃ s t : State, step s = .next t ∧ s.status.done = false ∧ t.status.done = true :=
  ⟨running (withBytes [0xFF#8]) (.pack 3), _, rfl, by decide⟩

theorem witness_OvrRisesOnlyWhileBusy :
    ∃ s t : State, step s = .next t ∧ s.status.ovr = false ∧ t.status.ovr = true :=
  ⟨coming (running State.reset (.pack 3)) [.bus (.write 0x30#32 .four 5#32)], _, rfl, by decide⟩

theorem witness_PendingCommandInputsAreStable : (running State.reset (.pack 3)).status.busy = true := rfl

-- At BPS 1 and 16, where PACK's input capacity is met exactly and where it is exceeded by one.
theorem witness_CapacityExceededCauses (len : Word) (h : len ∈ [4096#32, 4097#32]) (n : Nat) (hn : n ∈ [1, 16]) :
    ∃ s : State, s.byteLen = len ∧ 1 ≤ n ∧ n ≤ s.params.maxBps ∧ (n % 2 = 0 ∨ s.ctrl.legacyOdd = true) ∧
      (n % 2 = 0 ∨ s.ctrl.legacyOdd = true ∧ s.ctrl.clamp = false) := by
  simp only [List.mem_cons, List.not_mem_nil, or_false] at h hn
  rcases h with rfl | rfl <;> rcases hn with rfl | rfl
  · exact ⟨legacy { State.reset with byteLen := 4096#32 }, by decide⟩
  · exact ⟨{ State.reset with byteLen := 4096#32 }, by decide⟩
  · exact ⟨legacy { State.reset with byteLen := 4097#32 }, by decide⟩
  · exact ⟨{ State.reset with byteLen := 4097#32 }, by decide⟩

theorem witness_PackPacksTheStream (n : Nat) (hn : n ∈ [1, 16]) :
    (withBytes [0xFF#8]).params.Legal ∧ 1 ≤ n ∧ n ≤ (withBytes [0xFF#8]).params.maxBps ∧
      (withBytes [0xFF#8]).byteLen.toNat ≤ (withBytes [0xFF#8]).params.byteCap ∧
      (8 * (withBytes [0xFF#8]).byteLen.toNat + n - 1) / n ≤ (withBytes [0xFF#8]).params.valCap := by
  simp only [List.mem_cons, List.not_mem_nil, or_false] at hn
  rcases hn with rfl | rfl <;> decide

theorem witness_UnpackExpandsTheWords :
    ∃ (n : Nat) (s : State), s.params.Legal ∧ 1 ≤ n ∧ n ≤ s.params.maxBps ∧ s.valCnt.toNat ≤ s.params.valCap ∧
      (s.valCnt.toNat * n + 7) / 8 ≤ s.params.byteCap ∧ 0 < s.valCnt.toNat :=
  ⟨3, withVals [7#32, 7#32, 6#32], by decide⟩

theorem witness_MapWritesRotatedPoints (n : Nat) (hn : n ∈ [1, 2, 16]) :
    ∃ s : State, s.params.Legal ∧ 1 ≤ n ∧ n ≤ s.params.maxBps ∧ (n % 2 = 0 ∨ s.ctrl.legacyOdd = true) ∧
      s.valCnt.toNat ≤ s.params.valCap ∧ s.valCnt.toNat ≤ s.params.symCap ∧ 0 < s.valCnt.toNat := by
  simp only [List.mem_cons, List.not_mem_nil, or_false] at hn
  rcases hn with rfl | rfl | rfl <;> exact ⟨legacy (withVals [1#32]), by decide⟩

-- A finite point and a NaN at n = 4, under both policies; odd n under wrap.
theorem witness_SliceDecidesSymbols (clamp : Bool) (n : Nat) (h : (clamp, n) ∈ [(false, 4), (true, 4), (false, 3)]) :
    ∃ s : State, s.ctrl.clamp = clamp ∧ s.params.Legal ∧ 1 ≤ n ∧ n ≤ s.params.maxBps ∧
      (n % 2 = 0 ∨ s.ctrl.legacyOdd = true ∧ s.ctrl.clamp = false) ∧ s.symCnt.toNat ≤ s.params.symCap ∧
      s.symCnt.toNat ≤ s.params.valCap ∧ s.reElem 0 = 0x4059000000000000#64 ∧ s.reElem 1 = 0x7FF8000000000000#64 ∧
      s.symCnt = 2#32 := by
  refine ⟨{ withSyms [(0x4059000000000000#64, 0xC059000000000000#64), (0x7FF8000000000000#64, 0#64)] with
    ctrl := { Ctrl.reset with clamp := clamp, legacyOdd := true } }, ?_⟩
  simp only [List.mem_cons, List.not_mem_nil, or_false, Prod.mk.injEq] at h
  rcases h with ⟨rfl, rfl⟩ | ⟨rfl, rfl⟩ | ⟨rfl, rfl⟩ <;> decide

-- The index arguments of the finite point are finite, those of the NaN are not.
theorem witness_SliceDecidesSymbols_finite :
    F64.isFinite (indexArg (side 4) (unrotate State.reset.rotCos State.reset.rotSin 0x4059000000000000#64
      0xC059000000000000#64).1) = true ∧
    F64.isFinite (indexArg (side 4) (unrotate State.reset.rotCos State.reset.rotSin 0x7FF8000000000000#64 0#64).1) =
      false := by decide +kernel

theorem witness_ModModulatesTheStream (n : Nat) (hn : n ∈ [1, 2, 16]) :
    ∃ s : State, s.params.Legal ∧ 1 ≤ n ∧ n ≤ s.params.maxBps ∧ (n % 2 = 0 ∨ s.ctrl.legacyOdd = true) ∧
      s.byteLen.toNat ≤ s.params.byteCap ∧ (8 * s.byteLen.toNat + n - 1) / n ≤ s.params.valCap ∧
      (8 * s.byteLen.toNat + n - 1) / n ≤ s.params.symCap ∧ 0 < s.byteLen.toNat := by
  simp only [List.mem_cons, List.not_mem_nil, or_false] at hn
  rcases hn with rfl | rfl | rfl <;> exact ⟨legacy (withBytes [0xFF#8]), by decide⟩

theorem witness_DemodDemodulatesTheSignal (n : Nat) (hn : n ∈ [1, 2, 16]) :
    ∃ s : State, s.params.Legal ∧ 1 ≤ n ∧ n ≤ s.params.maxBps ∧
      (n % 2 = 0 ∨ s.ctrl.legacyOdd = true ∧ s.ctrl.clamp = false) ∧ s.symCnt.toNat ≤ s.params.symCap ∧
      s.symCnt.toNat ≤ s.params.valCap ∧ (s.symCnt.toNat * n + 7) / 8 ≤ s.params.byteCap ∧ 0 < s.symCnt.toNat := by
  simp only [List.mem_cons, List.not_mem_nil, or_false] at hn
  rcases hn with rfl | rfl | rfl <;> exact ⟨legacy (withSyms [(0#64, 0#64)]), by decide⟩

theorem witness_SerGivesStreamLength :
    ∃ s : State, s.params.Legal ∧ s.symCnt.toNat ≤ s.params.symCap ∧ s.symCnt.toNat = s.params.symCap :=
  ⟨{ State.reset with symCnt := 32768#32 }, by decide⟩

theorem witness_DeserGivesSymbolCount :
    (∃ s : State, s.sigLen.toNat ≤ 16 * s.params.symCap ∧ (s.sigLen.toNat % 16 = 0 ∨ s.ctrl.trunc = true) ∧
      s.sigLen.toNat = 16 * s.params.symCap) ∧
    (∃ s : State, s.sigLen.toNat ≤ 16 * s.params.symCap ∧ (s.sigLen.toNat % 16 = 0 ∨ s.ctrl.trunc = true) ∧
      s.sigLen.toNat % 16 = 15) :=
  ⟨⟨{ State.reset with sigLen := 524288#32 }, by decide⟩,
   ⟨{ State.reset with sigLen := 15#32, ctrl := { Ctrl.reset with trunc := true } }, by decide⟩⟩

theorem witness_ModIsPackThenMap :
    ∃ (n : Nat) (s t : State), s.params.Legal ∧ exec (.mod n) s = .next t ∧ t.status.err = false :=
  ⟨2, withBytes [0x48#8, 0x69#8], _, by decide, rfl, rfl⟩

theorem witness_DemodIsSliceThenUnpack :
    ∃ (n : Nat) (s t : State), s.params.Legal ∧ exec (.demod n) s = .next t ∧ t.status.err = false :=
  ⟨4, withSyms [(0#64, 0#64)], _, by decide, rfl, rfl⟩

-- n = 8 divides the 8 bits, n = 3 does not (one more byte), n = 14 does not divide 16 bits (two more bytes).
theorem witness_PackUnpackContract (n : Nat) (bs : List Byte)
    (h : (n, bs) ∈ [(8, [0xFF#8]), (3, [0xFF#8]), (14, [0xAB#8, 0xCD#8])]) :
    ∃ s u t : State, s.params.Legal ∧ exec (.pack n) s = .next u ∧ u.status.err = false ∧
      exec (.unpack n) u = .next t ∧ t.status.err = false ∧ s.byteLen.toNat = bs.length := by
  simp only [List.mem_cons, List.not_mem_nil, or_false, Prod.mk.injEq] at h
  rcases h with ⟨rfl, rfl⟩ | ⟨rfl, rfl⟩ | ⟨rfl, rfl⟩
  · exact ⟨withBytes [0xFF#8], _, _, by decide, rfl, rfl, rfl, rfl, rfl⟩
  · exact ⟨withBytes [0xFF#8], _, _, by decide, rfl, rfl, rfl, rfl, rfl⟩
  · exact ⟨withBytes [0xAB#8, 0xCD#8], _, _, by decide, rfl, rfl, rfl, rfl, rfl⟩

-- 3 words of 3 bits leave a partial byte; 4 words of 2 bits do not.
theorem witness_UnpackPackLaw (n : Nat) (ws : List Word)
    (h : (n, ws) ∈ [(3, [7#32, 7#32, 6#32]), (2, [3#32, 2#32, 1#32, 0#32])]) :
    ∃ s u t : State, s.params.Legal ∧ exec (.unpack n) s = .next u ∧ u.status.err = false ∧
      exec (.pack n) u = .next t ∧ t.status.err = false ∧ s.valCnt.toNat = ws.length := by
  simp only [List.mem_cons, List.not_mem_nil, or_false, Prod.mk.injEq] at h
  rcases h with ⟨rfl, rfl⟩ | ⟨rfl, rfl⟩
  · exact ⟨withVals [7#32, 7#32, 6#32], _, _, by decide, rfl, rfl, rfl, rfl, rfl⟩
  · exact ⟨withVals [3#32, 2#32, 1#32, 0#32], _, _, by decide, rfl, rfl, rfl, rfl, rfl⟩

theorem witness_SerDeserRoundTrip : ∃ s : State, s.params.Legal ∧ s.symCnt.toNat ≤ s.params.symCap ∧ s.symCnt = 8#32 :=
  ⟨{ State.reset with symCnt := 8#32 }, by decide⟩

theorem witness_NoiselessRoundTrip (clamp : Bool) (n v : Nat)
    (h : (clamp, n, v) ∈ [(false, 1, 1), (true, 2, 0), (false, 15, 32767), (true, 16, 65535)]) :
    1 ≤ n ∧ n ≤ 16 ∧ v < 2 ^ n ∧ (clamp = true → n % 2 = 0) := by
  simp only [List.mem_cons, List.not_mem_nil, or_false, Prod.mk.injEq] at h
  rcases h with ⟨rfl, rfl, rfl⟩ | ⟨rfl, rfl, rfl⟩ | ⟨rfl, rfl, rfl⟩ | ⟨rfl, rfl, rfl⟩ <;> decide

-- n = 2 divides the 16 bits of "Hi"; n = 3 (legacy) does not divide the 8 bits of FF.
theorem witness_PipelineRoundTrip :
    (∃ (n : Nat) (s u t : State), s.params.Legal ∧ s.rotCos = 0x3FEF838B8C811C17#64 ∧ s.rotSin = 0x3FC63A1A7E0B7389#64 ∧
      exec (.mod n) s = .next u ∧ u.status.err = false ∧ exec (.demod n) u = .next t ∧ t.status.err = false ∧
      8 * s.byteLen.toNat % n = 0 ∧ s.byteLen = 2#32) ∧
    (∃ (n : Nat) (s u t : State), s.params.Legal ∧ s.rotCos = 0x3FEF838B8C811C17#64 ∧ s.rotSin = 0x3FC63A1A7E0B7389#64 ∧
      exec (.mod n) s = .next u ∧ u.status.err = false ∧ exec (.demod n) u = .next t ∧ t.status.err = false ∧
      8 * s.byteLen.toNat % n ≠ 0) :=
  ⟨⟨2, withBytes [0x48#8, 0x69#8], _, _, by decide, by decide, by decide, rfl, rfl, rfl, rfl, by decide, by decide⟩,
   ⟨3, legacy (withBytes [0xFF#8]), _, _, by decide, by decide, by decide, rfl, rfl, rfl, rfl, by decide⟩⟩

-- 1 + 2 = 3 and the least positive value; the largest finite value added to itself, where the sum is not finite.
theorem witness_AddRoundsToNearestEven (x y : F64)
    (h : (x, y) ∈ [(0x3FF0000000000000#64, 0x4000000000000000#64), (1#64, 0x8000000000000001#64),
      (0x7FEFFFFFFFFFFFFF#64, 0x7FEFFFFFFFFFFFFF#64)]) :
    F64.isFinite x = true ∧ F64.isFinite y = true ∧
      (∃ (r : F64) (e : Int), r = F64.fadd x y ∧ e = F64.toInt x + F64.toInt y ∨
        r = F64.fsub x y ∧ e = F64.toInt x - F64.toInt y) := by
  refine ⟨?_, ?_, _, _, .inl ⟨rfl, rfl⟩⟩ <;>
    (simp only [List.mem_cons, List.not_mem_nil, or_false, Prod.mk.injEq] at h
     rcases h with ⟨rfl, rfl⟩ | ⟨rfl, rfl⟩ | ⟨rfl, rfl⟩ <;> decide)

theorem test_add_one_two : F64.fadd 0x3FF0000000000000#64 0x4000000000000000#64 = 0x4008000000000000#64 := by
  decide +kernel

theorem test_add_overflow : F64.isFinite (F64.fadd 0x7FEFFFFFFFFFFFFF#64 0x7FEFFFFFFFFFFFFF#64) = false := by
  decide +kernel

-- 1.5 times 2 is finite; the largest finite value squared is not; the least positive value squared rounds to 0.
theorem witness_MulRoundsToNearestEven (x y : F64)
    (h : (x, y) ∈ [(0x3FF8000000000000#64, 0x4000000000000000#64), (0x7FEFFFFFFFFFFFFF#64, 0x7FEFFFFFFFFFFFFF#64),
      (1#64, 1#64)]) : F64.isFinite x = true ∧ F64.isFinite y = true := by
  simp only [List.mem_cons, List.not_mem_nil, or_false, Prod.mk.injEq] at h
  rcases h with ⟨rfl, rfl⟩ | ⟨rfl, rfl⟩ | ⟨rfl, rfl⟩ <;> decide

theorem test_mul : F64.fmul 0x3FF8000000000000#64 0x4000000000000000#64 = 0x4008000000000000#64 ∧
    F64.isFinite (F64.fmul 0x7FEFFFFFFFFFFFFF#64 0x7FEFFFFFFFFFFFFF#64) = false ∧ F64.fmul 1#64 1#64 = 0#64 := by
  decide +kernel

-- Table R: 2.5 and -0.5.
theorem witness_RoundHalfAwayIsNearest :
    F64.isFinite 0x4004000000000000#64 = true ∧ F64.roundHalfAway 0x4004000000000000#64 = 3 ∧
      F64.isFinite 0xBFE0000000000000#64 = true ∧ F64.roundHalfAway 0xBFE0000000000000#64 = -1 := by decide +kernel

theorem witness_LatticeCoordIsExact : (65536 : Nat) ≤ 65536 ∧ (65535 : Nat) ≤ 65535 ∧ 0 ≤ 65535 := by decide

theorem witness_OutOfLatticeIsOutsideSquare : outOfLattice 4 3 3 = false ∧ outOfLattice 4 4 0 = true ∧ 4 % 2 = 0 := by decide

-- Each input non-finite alone: an infinity, then a NaN.
theorem witness_NonFiniteInputsAreReported (z : F64) (h : z ∈ [0x7FF0000000000000#64, 0x7FF8000000000000#64]) :
    F64.isFinite z = false ∧ F64.isFinite 0#64 = true := by
  simp only [List.mem_cons, List.not_mem_nil, or_false] at h
  rcases h with rfl | rfl <;> decide

theorem witness_SlicedValueFitsItsField (clamp : Bool) (n : Nat) (h : (clamp, n) ∈ [(false, 15), (true, 16)]) :
    clamp = true → n % 2 = 0 := by
  simp only [List.mem_cons, List.not_mem_nil, or_false, Prod.mk.injEq] at h
  rcases h with ⟨rfl, rfl⟩ | ⟨rfl, rfl⟩ <;> decide

-- n = 4: the square's corners 0 and 3.
theorem witness_RoundThenClampIsNearestPoint (p : Int) (h : p ∈ [0, 3]) :
    F64.isFinite 0x4024000000000000#64 = true ∧ F64.isFinite 0xC024000000000000#64 = true ∧ 0 ≤ p ∧ p < side 4 := by
  simp only [List.mem_cons, List.not_mem_nil, or_false] at h
  rcases h with rfl | rfl <;> decide

-- C = S = 1.7e308, n = 4, v = 0: both products overflow to infinities of one sign, and R143's last sentence fails.
theorem witness_FiniteConstantsNeverMakeNaN :
    F64.isFinite 0x7FEE42D130773B76#64 = true ∧ (0 : Nat) < 2 ^ 4 ∧
      F64.isNaN (mapPoint 0x7FEE42D130773B76#64 0x7FEE42D130773B76#64 (side 4) 0).1 = true := by decide +kernel

-- 0x1000, the byte after BYTE_MEM, and a word at the end of the address space.
theorem witness_UnmappedAccessGetsDecerr (a : Nat) (h : a ∈ [0x1000, 0x11000, 0xFFFFFFFF + 3]) :
    ∃ (s : State) (addr : Word) (size : Size) (j : Nat), addr.toNat + j = a ∧ j < size.bytes ∧ 0x1000 ≤ addr.toNat + j ∧
      ¬(0x10000 ≤ addr.toNat + j ∧ addr.toNat + j < 0x10000 + s.params.byteCap) ∧
      ¬(0x100000 ≤ addr.toNat + j ∧ addr.toNat + j < 0x100000 + 4 * s.params.valCap) ∧
      ¬(0x1000000 ≤ addr.toNat + j ∧ addr.toNat + j < 0x1000000 + 16 * s.params.symCap) := by
  simp only [List.mem_cons, List.not_mem_nil, or_false] at h
  rcases h with rfl | rfl | rfl
  · exact ⟨State.reset, 0x1000#32, .one, 0, by decide⟩
  · exact ⟨State.reset, 0x10FFE#32, .four, 2, by decide⟩
  · exact ⟨State.reset, 0xFFFFFFFF#32, .four, 3, by decide⟩

theorem witness_MisalignedAccessGetsSlverr (addr : Word) (size : Size)
    (h : (addr, size) ∈ [(0x2#32, .four), (0x0#32, .two), (0x10001#32, .two)]) :
    (∀ j, j < size.bytes → mappedAddr State.reset.params (addr.toNat + j) = true) ∧
      (addr.toNat < 0x1000 ∧ (size ≠ .four ∨ addr.toNat % 4 ≠ 0) ∨ 0x1000 ≤ addr.toNat ∧ addr.toNat % size.bytes ≠ 0) := by
  simp only [List.mem_cons, List.not_mem_nil, or_false, Prod.mk.injEq] at h
  rcases h with ⟨rfl, rfl⟩ | ⟨rfl, rfl⟩ | ⟨rfl, rfl⟩ <;> decide

-- The first byte of BYTE_MEM and the last word of SYM_MEM, pending or idle.
theorem witness_BusyBufferAccessIsRefused (addr : Word) (size : Size)
    (h : (addr, size) ∈ [(0x10000#32, .one), (0x107FFFC#32, .four)]) :
    (pending State.reset).status.busy = true ∧ addr.toNat % size.bytes = 0 ∧
      ∀ j, j < size.bytes → bufferAddr (pending State.reset).params (addr.toNat + j) = true := by
  simp only [List.mem_cons, List.not_mem_nil, or_false, Prod.mk.injEq] at h
  rcases h with ⟨rfl, rfl⟩ | ⟨rfl, rfl⟩ <;> decide

theorem witness_IdleBufferAccessMovesBytes (addr : Word) (size : Size)
    (h : (addr, size) ∈ [(0x10000#32, .one), (0x107FFFC#32, .four)]) :
    State.reset.status.busy = false ∧ addr.toNat % size.bytes = 0 ∧
      ∀ j, j < size.bytes → bufferAddr State.reset.params (addr.toNat + j) = true := by
  simp only [List.mem_cons, List.not_mem_nil, or_false, Prod.mk.injEq] at h
  rcases h with ⟨rfl, rfl⟩ | ⟨rfl, rfl⟩ <;> decide

theorem witness_BufferElementsAreLittleEndian : (3 : Nat) < 4 ∧ (7 : Nat) < 8 ∧ (0 : Nat) < 4 := by decide

theorem witness_BusyRegisterWriteIsRefused :
    (pending State.reset).status.busy = true ∧
      0x4C#32 ∈ [0x20#32, 0x28#32, 0x30#32, 0x34#32, 0x38#32, 0x3C#32, 0x40#32, 0x44#32, 0x48#32, 0x4C#32] := by decide

theorem witness_CmdWriteAcceptsCommand : State.reset.status.busy = false := rfl

theorem witness_IdleRegisterWriteStores :
    (withBytes [0xFF#8]).status.busy = false ∧
      ∃ (i : Instr) (s t : State), s.status.busy = true ∧ exec i s = .next t :=
  ⟨rfl, .pack 3, running (withBytes [0xFF#8]) (.pack 3), _, rfl, rfl⟩

-- ID, CAP_SYM, a reserved offset below the last register, the last offset of the window.
theorem witness_ReadOnlyAndReservedOffsets (addr : Word) (h : addr ∈ [0x0#32, 0x10#32, 0x2C#32, 0xFFC#32]) :
    addr.toNat < 0x1000 ∧ addr.toNat % 4 = 0 ∧
      addr ∉ [0x20#32, 0x24#32, 0x28#32, 0x30#32, 0x34#32, 0x38#32, 0x3C#32, 0x40#32, 0x44#32, 0x48#32, 0x4C#32] := by
  simp only [List.mem_cons, List.not_mem_nil, or_false] at h
  rcases h with rfl | rfl | rfl | rfl <;> decide

theorem witness_IrqFollowsDone :
    (0x7E#32).getLsbD 1 = true ∧ (0x7E#32).getLsbD 0 = false ∧ State.reset.status.busy = false ∧
      ∃ (i : Instr) (t : State), exec i State.reset = .next t := ⟨by decide, by decide, rfl, .nop 0, _, rfl⟩

theorem witness_ResetSetsEveryRegister :
    ∃ (s : State) (rest : List Event), s.script = .reset :: rest ∧ s.status.busy = true :=
  ⟨coming (running (withBytes [0xFF#8]) (.pack 3)) [.reset, .wait], [.wait], rfl, rfl⟩

-- The invariant's premise also holds of an instance at the ends of the parameters' ranges.
theorem witness_largestParams : largestParams.Legal := by decide

end Sys2Proof.Tests
end

section
/-! PROOFS. The legal states of the block: every step keeps a legal state legal (00_scope.md R6, 20_memory.md R61,
10_state.md R33, R34, R39), and what a step does at each head of the script (00_scope.md R13). -/

namespace Sys2Proof.Machine

/-! ### Memory inside the buffers -/

/-- The memory part of `State.Inv`, as a predicate on the memory alone: canonical, and every listed byte inside a buffer window. -/
def Memory.LegalIn (p : Params) (m : Memory) : Prop := m.wf ∧ ∀ c ∈ m, bufferAddr p c.1 = true

/-- A store into the buffers keeps memory legal. -/
theorem Memory.LegalIn.store {p : Params} {m : Memory} (hm : m.LegalIn p) {base : Nat} {bs : List Byte}
    (hb : ∀ a, base ≤ a → a < base + bs.length → bufferAddr p a = true) : (m.store base bs).LegalIn p := by
  obtain ⟨hwf, hin⟩ := hm
  refine ⟨store_wf hwf base bs, fun c hc => ?_⟩
  rcases mem_store hc with h | ⟨h1, h2⟩
  · exact hin c h
  · exact hb c.1 h1 h2

theorem setByteElems_legalIn {s : State} (hm : s.mem.LegalIn s.params) {bs : List Byte}
    (h : bs.length ≤ s.params.byteCap) : (s.setByteElems bs).mem.LegalIn s.params :=
  hm.store fun a h1 h2 => by
    rw [bufferAddr_iff]
    simp only [Config.byteBase] at h1 h2
    omega

theorem setValElems_legalIn {s : State} (hm : s.mem.LegalIn s.params) {ws : List Word}
    (h : ws.length ≤ s.params.valCap) : (s.setValElems ws).mem.LegalIn s.params :=
  hm.store fun a h1 h2 => by
    rw [length_valBytes] at h2
    rw [bufferAddr_iff]
    simp only [Config.valBase] at h1 h2
    omega

theorem setSymElems_legalIn {s : State} (hm : s.mem.LegalIn s.params) {ps : List (F64 × F64)}
    (h : ps.length ≤ s.params.symCap) : (s.setSymElems ps).mem.LegalIn s.params :=
  hm.store fun a h1 h2 => by
    rw [length_symBytes] at h2
    rw [bufferAddr_iff]
    simp only [Config.symBase] at h1 h2
    omega

theorem packBody_legalIn {s : State} (hm : s.mem.LegalIn s.params) (n len : Nat)
    (h : packCount n len ≤ s.params.valCap) : (packBody n len s).mem.LegalIn s.params :=
  setValElems_legalIn hm (by simpa using h)

theorem unpackBody_legalIn {s : State} (hm : s.mem.LegalIn s.params) (n c : Nat)
    (h : unpackCount n c ≤ s.params.byteCap) : (unpackBody n c s).mem.LegalIn s.params :=
  setByteElems_legalIn hm (by simpa using h)

theorem mapBody_legalIn {s : State} (hm : s.mem.LegalIn s.params) (n c : Nat)
    (h : c ≤ s.params.symCap) : (mapBody n c s).mem.LegalIn s.params :=
  setSymElems_legalIn hm (by simpa using h)

theorem sliceBody_legalIn {s : State} (hm : s.mem.LegalIn s.params) (n c : Nat)
    (h : c ≤ s.params.valCap) : (sliceBody n c s).mem.LegalIn s.params :=
  setValElems_legalIn hm (by simpa using h)

theorem serCommand_frame {s t : State} (h : serCommand s = .ok t) : t.params = s.params ∧ t.mem = s.mem := by
  simp only [serCommand, if_error_eq_ok, Except.ok.injEq] at h
  obtain ⟨-, rfl⟩ := h
  exact ⟨rfl, rfl⟩

theorem deserCommand_frame {s t : State} (h : deserCommand s = .ok t) : t.params = s.params ∧ t.mem = s.mem := by
  simp only [deserCommand] at h
  split_ifs at h <;> cases h <;> exact ⟨rfl, rfl⟩

/-- A command's checks (60_exceptions.md R209) let it write only inside the buffers: what it completes with, when it does not
fail, has the same parameters and a legal memory. -/
theorem exec_completes_legalIn (i : Instr) {s : State} (hm : s.mem.LegalIn s.params) :
    ∃ r, exec i s = .next (s.complete r) ∧ ∀ t, r = .ok t → t.params = s.params ∧ t.mem.LegalIn s.params := by
  cases i with
  | nop n => exact ⟨.ok s, rfl, by rintro t ⟨⟩; exact ⟨rfl, hm⟩⟩
  | pack n =>
    refine ⟨packCommand n s, rfl, fun t ht => ?_⟩
    obtain ⟨-, -, hval, rfl⟩ := (packCommand_ok n s t).1 ht
    exact ⟨rfl, packBody_legalIn hm _ _ hval⟩
  | map n =>
    refine ⟨mapCommand n s, rfl, fun t ht => ?_⟩
    obtain ⟨-, -, hsym, rfl⟩ := (mapCommand_ok n s t).1 ht
    exact ⟨rfl, mapBody_legalIn hm _ _ hsym⟩
  | slice n =>
    refine ⟨sliceCommand n s, rfl, fun t ht => ?_⟩
    obtain ⟨-, -, hval, rfl⟩ := (sliceCommand_ok n s t).1 ht
    exact ⟨rfl, sliceBody_legalIn hm _ _ hval⟩
  | unpack n =>
    refine ⟨unpackCommand n s, rfl, fun t ht => ?_⟩
    obtain ⟨-, -, hbyte, rfl⟩ := (unpackCommand_ok n s t).1 ht
    exact ⟨rfl, unpackBody_legalIn hm _ _ hbyte⟩
  | mod n =>
    refine ⟨modCommand n s, rfl, fun t ht => ?_⟩
    obtain ⟨-, -, hval, hsym, rfl⟩ := (modCommand_ok n s t).1 ht
    exact ⟨rfl, mapBody_legalIn (s := packBody n _ s) (packBody_legalIn hm _ _ hval) _ _ hsym⟩
  | demod n =>
    refine ⟨demodCommand n s, rfl, fun t ht => ?_⟩
    obtain ⟨-, -, hval, hbyte, rfl⟩ := (demodCommand_ok n s t).1 ht
    exact ⟨rfl, unpackBody_legalIn (s := sliceBody n _ s) (sliceBody_legalIn hm _ _ hval) _ _ hbyte⟩
  | ser n =>
    refine ⟨serCommand s, rfl, fun t ht => ?_⟩
    obtain ⟨hp, hmem⟩ := serCommand_frame ht
    exact ⟨hp, hmem ▸ hm⟩
  | deser n =>
    refine ⟨deserCommand s, rfl, fun t ht => ?_⟩
    obtain ⟨hp, hmem⟩ := deserCommand_frame ht
    exact ⟨hp, hmem ▸ hm⟩

/-! ### STATUS -/

/-- The STATUS part of `State.Inv`. -/
def Status.Legal (st : Status) : Prop := st.pendingClear ∧ st.codeLegal

/-- An error code is 1 to 4 (60_exceptions.md R204). -/
theorem ErrCode.code_bounds (e : ErrCode) : e.code.toNat ≤ 4 ∧ e.code ≠ 0#4 := by cases e <;> decide

theorem Status.reset_legal : Status.reset.Legal := by unfold Status.Legal; decide

theorem Status.accepted_legal (st : Status) : st.accepted.Legal := by
  simp [Status.Legal, Status.codeLegal]

theorem Status.succeeded_legal (st : Status) : st.succeeded.Legal := by
  simp [Status.Legal, Status.codeLegal]

theorem Status.failed_legal (st : Status) (e : ErrCode) : (st.failed e).Legal := by
  simp [Status.Legal, Status.codeLegal, e.code_bounds]

theorem Status.Legal.overrun {st : Status} (h : st.Legal) : st.overrun.Legal := h

/-- A host write to STATUS clears ERR and ERRCODE together (10_state.md R40), so ERRCODE stays 0 exactly when ERR is. -/
theorem Status.Legal.writeOneToClear {st : Status} (h : st.Legal) (w : Word) : (st.writeOneToClear w).Legal := by
  obtain ⟨hpend, hle, hiff⟩ := h
  refine ⟨fun hb => ?_, ?_⟩
  · obtain ⟨hdone, herr⟩ := hpend hb
    simp [hdone, herr]
  · simp only [Status.codeLegal, status_writeOneToClear_err, status_writeOneToClear_errcode]
    cases w.getLsbD 2
    · simpa using And.intro hle hiff
    · simp

/-! ### The invariant -/

/-- A legal state is one with legal parameters, memory and STATUS: what `State.Inv` says, part by part. -/
theorem inv_iff (s : State) : s.Inv ↔ s.params.Legal ∧ s.mem.LegalIn s.params ∧ s.status.Legal := by
  simp only [State.Inv, Memory.LegalIn, Status.Legal, State.memInBuffers, and_assoc]

/-- The script and the reply are no part of a legal state. -/
theorem inv_of_frame {s t : State} (h : s.Inv) (hp : t.params = s.params) (hm : t.mem = s.mem)
    (hst : t.status = s.status) : t.Inv := by
  rw [inv_iff] at h ⊢
  rwa [hp, hm, hst]

/-- A completion is legal whatever STATUS was: it writes BUSY, DONE, ERR and ERRCODE (60_exceptions.md R206, R207). -/
theorem complete_inv {s : State} (h : s.Inv) {r : Except ErrCode State}
    (hr : ∀ t, r = .ok t → t.params = s.params ∧ t.mem.LegalIn s.params) : (s.complete r).Inv := by
  obtain ⟨hp, hm, -⟩ := (inv_iff s).1 h
  rw [inv_iff]
  rcases complete_cases s r with ⟨e, -, hc⟩ | ⟨t, rfl, hc⟩
  · rw [hc]
    exact ⟨hp, hm, Status.failed_legal _ e⟩
  · obtain ⟨hpt, hmt⟩ := hr t rfl
    rw [hc, succeed_params, succeed_mem, hpt]
    exact ⟨hp, hmt, Status.succeeded_legal _⟩

theorem exec_inv {s t : State} (i : Instr) (h : s.Inv) (ht : exec i s = .next t) : t.Inv := by
  obtain ⟨r, hr, hok⟩ := exec_completes_legalIn i ((inv_iff s).1 h).2.1
  cases hr.symm.trans ht
  exact complete_inv h hok

theorem engineStep_inv {s t : State} (h : s.Inv) (ht : engineStep s = .next t) : t.Inv := by
  cases hd : decode s.cmd with
  | ok i => exact exec_inv i h (by simpa [engineStep, hd] using ht)
  | error e =>
    simp only [engineStep, hd, Host.Outcome.next.injEq] at ht
    subst ht
    exact complete_inv h (by intro t ht; cases ht)

theorem engineTurn_inv {s t : State} (h : s.Inv) (ht : engineTurn s = .next t) : t.Inv := by
  rcases engineTurn_cases s with ⟨-, he⟩ | ⟨-, he⟩
  · cases he.symm.trans ht
    exact h
  · exact engineStep_inv h (he.symm.trans ht)

theorem writeReg_inv {s : State} (h : s.Inv) (r : Reg) (w : Word) : (s.writeReg r w).Inv := by
  obtain ⟨hp, hm, hst⟩ := (inv_iff s).1 h
  cases r
  case status => exact (inv_iff _).2 ⟨hp, hm, hst.writeOneToClear w⟩
  case cmd => exact (inv_iff _).2 ⟨hp, hm, Status.accepted_legal _⟩
  all_goals exact inv_of_frame h rfl rfl rfl

/-- A transaction keeps a legal state legal: its stores are inside the buffers, because its route is. -/
theorem transact_inv {s : State} (h : s.Inv) (tx : Txn) : (s.transact tx).1.Inv := by
  obtain ⟨hp, hm, hst⟩ := (inv_iff s).1 h
  rcases transact_cases s tx with hs | ⟨-, hs⟩ | ⟨-, v, r, -, -, -, hs⟩ | ⟨addr, size, v, -, -, hroute, hs⟩
  · rwa [hs]
  · rw [hs]
    exact (inv_iff _).2 ⟨hp, hm, hst.overrun⟩
  · rw [hs]
    exact writeReg_inv h r v
  · rw [hs]
    refine (inv_iff _).2 ⟨hp, hm.store fun a h1 h2 => ?_, hst⟩
    rw [length_leBytes] at h2
    have := bufferAddr_of_route hroute (a - addr.toNat) (by omega)
    rwa [Nat.add_sub_of_le h1] at this

theorem hostStep_inv {s : State} (h : s.Inv) (tx : Txn) : (s.hostStep tx).Inv :=
  inv_of_frame (transact_inv h tx) rfl rfl rfl

theorem resetInput_inv {s : State} (h : s.Inv) : s.resetInput.Inv :=
  (inv_iff _).2 ⟨h.1, ⟨reset_mem_wf, by simp [State.resetInput, State.reset]⟩, Status.reset_legal⟩

/-- Settles O12, event by event: the engine's completion, a host transaction and reset each keep the invariant, and taking
the event off the script is no matter of it. -/
theorem stepKeepsLegalState : Obligations.StepKeepsLegalState := by
  intro s t h ht
  have hrest (rest : List Event) : State.Inv { s with script := rest } := inv_of_frame h rfl rfl rfl
  rcases step_cases s with ⟨-, he⟩ | ⟨tx, rest, -, he⟩ | ⟨rest, -, -, he⟩ | ⟨rest, -, -, he⟩ | ⟨rest, -, he⟩ |
    ⟨rest, -, he⟩
  · exact engineTurn_inv h (he.symm.trans ht)
  · cases he.symm.trans ht
    exact hostStep_inv (hrest rest) tx
  · exact engineStep_inv h (he.symm.trans ht)
  · cases he.symm.trans ht
    exact hostStep_inv (hrest rest) _
  · exact engineTurn_inv (hrest rest) (he.symm.trans ht)
  · cases he.symm.trans ht
    exact resetInput_inv (hrest rest)

/-! ### The step at each head of the script -/

/-- A poll of STATUS (30_encoding.md R100) leaves the state and gets the same reply whatever is to come. -/
theorem hostStep_readStatus (s : State) (rest : List Event) :
    ({ s with script := rest } : State).hostStep (.read statusAddr .four) =
      { s with script := rest, reply := some (s.transact (.read 0x24#32 .four)).2 } := by
  have hread (u : State) := transact_read_register u 0x24#32 .status (by decide) (by decide) rfl
  simp [State.hostStep, statusAddr, hread, State.readReg]

/-- Settles O7: one equation of `step` per head of the script. -/
theorem stepFollowsScript : Obligations.StepFollowsScript := by
  intro s rest
  refine ⟨fun tx h => ?_, fun h hb => ?_, fun h hb => ?_, fun h => ?_, fun h hb => ?_⟩
  · simp [step, advance, h, State.hostStep]
  · simp [step, advance, h, hb, hostStep_readStatus]
  · simp [step, advance, h, engineTurn, hb]
  · simp [step, advance, h, State.resetInput]
  · simp [step, advance, h, engineTurn, hb]

end Sys2Proof.Machine
end

section
/-! PROOFS. The side of the lattice (00_scope.md R10, 41_constellation.md R130, R131). -/

namespace Sys2Proof.Machine

/-- `isqrt(m)` is the integer square root (00_scope.md R10): its search starts above every root. -/
theorem isqrt_spec (m : Nat) : isqrt m * isqrt m ≤ m ∧ m < (isqrt m + 1) * (isqrt m + 1) := by
  refine isqrtFrom_spec m (m.log2 / 2 + 1) 0 (Nat.zero_le m) ?_
  calc m < 2 ^ (m.log2 + 1) := Nat.lt_log2_self
    _ ≤ 2 ^ ((m.log2 / 2 + 1) + (m.log2 / 2 + 1)) := Nat.pow_le_pow_right two_pos (by omega)
    _ = (0 + 2 ^ (m.log2 / 2 + 1)) * (0 + 2 ^ (m.log2 / 2 + 1)) := by rw [Nat.pow_add, Nat.zero_add]

/-- The search agrees with the library's integer square root. -/
theorem isqrt_eq_sqrt (m : Nat) : isqrt m = Nat.sqrt m := Nat.eq_sqrt.2 (isqrt_spec m)

/-- The lattice of an even `n` is a square of `2^(n/2)` points a side (41_constellation.md R130). -/
theorem side_of_even (n : Nat) (h : n % 2 = 0) : side n = 2 ^ (n / 2) := by
  have hn : 2 ^ n = 2 ^ (n / 2) * 2 ^ (n / 2) := by rw [← Nat.pow_add]; congr 1; omega
  rw [side, isqrt_eq_sqrt, hn, Nat.sqrt_eq]

/-- Settles O40, from the search's own bounds. -/
theorem sideIsIntegerSquareRoot : Obligations.SideIsIntegerSquareRoot := by
  intro n
  obtain ⟨hle, hlt⟩ := isqrt_spec (2 ^ n)
  exact ⟨hle, hlt, side_of_even n⟩

end Sys2Proof.Machine
end

section
/-! PROOFS. Rounding to nearest, ties to even (00_scope.md R11): which numbers of units a finite pattern has, what
`F64.round` gives, and that nothing finite is nearer to the exact result. -/

namespace Sys2Proof.F64

/-! ### Numbers of units -/

/-- A number with a significand of at most 53 bits: the magnitudes of binary64, without the bound on the exponent. -/
def Representable (w : Nat) : Prop := ∃ c e, c < 2 ^ 53 ∧ w = c * 2 ^ e

theorem representable_zero : Representable 0 := ⟨0, 0, by norm_num, rfl⟩

theorem units_representable (x : F64) : Representable (units x) := by
  have hf := fracField_lt x
  rw [units]
  split
  · exact ⟨fracField x, 0, by omega, by simp⟩
  · exact ⟨2 ^ 52 + fracField x, expField x - 1, by omega, rfl⟩

/-! ### Patterns -/

/-- The pattern of a sign and a number below 2^63, the exponent field and the fraction together. -/
def ofSignMag (neg : Bool) (p : Nat) : F64 := BitVec.ofNat 64 ((if neg then 2 ^ 63 else 0) + p)

section
variable (neg : Bool) {p : Nat}

theorem toNat_ofSignMag (h : p < 2 ^ 63) : (ofSignMag neg p).toNat = (if neg then 2 ^ 63 else 0) + p := by
  rw [ofSignMag, BitVec.toNat_ofNat]
  cases neg <;> simp <;> omega

theorem sign_ofSignMag (h : p < 2 ^ 63) : sign (ofSignMag neg p) = neg := by
  have hp : p.testBit 63 = false := Nat.testBit_lt_two_pow h
  rw [sign, BitVec.getLsbD, toNat_ofSignMag neg h]
  cases neg
  · simpa using hp
  · rw [if_pos rfl, Nat.testBit_two_pow_add_eq, hp]
    rfl

theorem expField_ofSignMag (h : p < 2 ^ 63) : expField (ofSignMag neg p) = p / 2 ^ 52 := by
  rw [expField, BitVec.extractLsb'_toNat, toNat_ofSignMag neg h, Nat.shiftRight_eq_div_pow]
  cases neg <;> (simp; omega)

theorem fracField_ofSignMag (h : p < 2 ^ 63) : fracField (ofSignMag neg p) = p % 2 ^ 52 := by
  rw [fracField, BitVec.extractLsb'_toNat, toNat_ofSignMag neg h, Nat.shiftRight_eq_div_pow]
  cases neg
  · simp
  · simp; omega

theorem getLsbD_zero_ofSignMag (h : p < 2 ^ 63) : (ofSignMag neg p).getLsbD 0 = decide (p % 2 = 1) := by
  rw [BitVec.getLsbD, toNat_ofSignMag neg h, Nat.testBit_zero]
  cases neg
  · simp
  · simp; omega

theorem isFinite_ofSignMag (h : p < 2 ^ 63) : isFinite (ofSignMag neg p) = true ↔ p / 2 ^ 52 ≠ 2047 := by
  rw [isFinite, expField_ofSignMag neg h, bne_iff_ne]

end

/-- A significand `q` rounded at the place of `e` has the pattern `e·2^52 + q`, also where `q` carried to 2^53
(the exponent field is then one higher and the fraction 0). -/
theorem units_ofSignMag (neg : Bool) {e q : Nat} (hq : q ≤ 2 ^ 53) (he : e = 0 ∨ 2 ^ 52 ≤ q)
    (h : e * 2 ^ 52 + q < 2 ^ 63) : units (ofSignMag neg (e * 2 ^ 52 + q)) = q * 2 ^ e := by
  rw [units, expField_ofSignMag neg h, fracField_ofSignMag neg h]
  rcases Nat.lt_trichotomy q (2 ^ 53) with hlt | rfl | hgt
  · by_cases hsmall : q < 2 ^ 52
    · obtain rfl : e = 0 := by omega
      rw [if_pos (by omega)]
      omega
    · have hexp : (e * 2 ^ 52 + q) / 2 ^ 52 = e + 1 := by omega
      have hfrac : (e * 2 ^ 52 + q) % 2 ^ 52 = q - 2 ^ 52 := by omega
      rw [hexp, hfrac, if_neg (by omega), Nat.add_sub_of_le (by omega), Nat.add_sub_cancel]
  · have hexp : (e * 2 ^ 52 + 2 ^ 53) / 2 ^ 52 = e + 2 := by omega
    have hfrac : (e * 2 ^ 52 + 2 ^ 53) % 2 ^ 52 = 0 := by omega
    rw [hexp, hfrac, if_neg (by omega), show e + 2 - 1 = e + 1 by omega, Nat.pow_succ]
    ring
  · omega

/-! ### The place and the significand of a rounding -/

section
variable (m d : Nat)

/-- The significand of the rounded magnitude, the carry to 2^53 included. -/
def roundSig : Nat := roundShift m (roundPlace m d)

/-- How far the rounding place is above one unit. -/
def roundExp : Nat := roundPlace m d - d

theorem roundPlace_eq : roundPlace m d = roundExp m d + d := by
  simp only [roundExp, roundPlace]; omega

/-- `round` puts exponent and significand together, up to the pattern of infinity. -/
theorem round_eq (neg : Bool) :
    round neg m d = ofSignMag neg (min (roundExp m d * 2 ^ 52 + roundSig m d) (0x7FF * 2 ^ 52)) := rfl

/-- The exact magnitude has at most 53 bits above the rounding place. -/
theorem lt_of_roundPlace : m < 2 ^ 53 * 2 ^ roundPlace m d := by
  calc m < 2 ^ (m.log2 + 1) := Nat.lt_log2_self
    _ ≤ 2 ^ (53 + roundPlace m d) := Nat.pow_le_pow_right two_pos (by simp only [roundPlace]; omega)
    _ = _ := Nat.pow_add ..

/-- Above the place of one unit the exact magnitude has all 53 bits. -/
theorem le_of_roundExp_pos (h : 0 < roundExp m d) : 2 ^ 52 * 2 ^ roundPlace m d ≤ m := by
  have hk : roundPlace m d = m.log2 - 52 ∧ 52 < m.log2 := by
    simp only [roundExp, roundPlace] at h ⊢; omega
  have hm : m ≠ 0 := by rintro rfl; simp at hk
  calc 2 ^ 52 * 2 ^ roundPlace m d = 2 ^ m.log2 := by rw [← Nat.pow_add, hk.1]; congr 1; omega
    _ ≤ m := Nat.log2_self_le hm

theorem roundSig_le : roundSig m d ≤ 2 ^ 53 := by
  have hm := lt_of_roundPlace m d
  obtain ⟨-, hhi, -⟩ := roundShift_bounds m (roundPlace m d)
  rw [← roundSig] at hhi
  by_contra hq
  have : (2 ^ 53 + 1) * 2 ^ roundPlace m d ≤ roundSig m d * 2 ^ roundPlace m d := Nat.mul_le_mul_right _ (by omega)
  have := Nat.two_pow_pos (roundPlace m d)
  rw [Nat.mul_assoc] at hhi
  omega

theorem le_roundSig (h : 0 < roundExp m d) : 2 ^ 52 ≤ roundSig m d := by
  have hm := le_of_roundExp_pos m d h
  obtain ⟨hlo, -, -⟩ := roundShift_bounds m (roundPlace m d)
  rw [← roundSig] at hlo
  by_contra hq
  have : (2 * roundSig m d + 1) * 2 ^ roundPlace m d ≤ (2 ^ 53 - 1) * 2 ^ roundPlace m d :=
    Nat.mul_le_mul_right _ (by omega)
  have := Nat.two_pow_pos (roundPlace m d)
  omega

end

/-! ### Overflow -/

/-- The midpoint between the largest finite value and 2^1024, in units of 2^-(1074+d): from there on `round` gives an infinity. -/
def overflowBound (d : Nat) : Nat := (2 ^ 54 - 1) * 2 ^ 2044 * 2 ^ d

/-- The rounded pattern stays below infinity's exactly when the exact magnitude is below the midpoint. Below the topmost
exponent both hold, above it neither; at the topmost exponent the midpoint itself goes to the even side, which is 2^53. -/
theorem pattern_lt_infinity_iff (m d : Nat) :
    roundExp m d * 2 ^ 52 + roundSig m d < 0x7FF * 2 ^ 52 ↔ m < overflowBound d := by
  have hlt := lt_of_roundPlace m d
  have hle := le_of_roundExp_pos m d
  have hq := roundSig_le m d
  have hq' := le_roundSig m d
  obtain ⟨hlo, hhi, heven⟩ := roundShift_bounds m (roundPlace m d)
  rw [← roundSig] at hlo hhi heven
  rw [roundPlace_eq] at hlt hle hlo hhi heven
  rw [overflowBound, Nat.mul_assoc, ← Nat.pow_add]
  rcases Nat.lt_trichotomy (roundExp m d) 2045 with he | he | he
  · have : 2 ^ (roundExp m d + d) ≤ 2 ^ (2044 + d) := Nat.pow_le_pow_right two_pos (by omega)
    generalize 2 ^ (2044 + d) = D at *
    omega
  · rw [he, show 2045 + d = 2044 + d + 1 by omega, Nat.pow_succ] at hlt hlo hhi heven
    have hD := Nat.two_pow_pos (2044 + d)
    generalize 2 ^ (2044 + d) = D at *
    have hcases : roundSig m d + 1 < 2 ^ 53 ∨ roundSig m d = 2 ^ 53 - 1 ∨ roundSig m d = 2 ^ 53 := by omega
    rcases hcases with hs | hs | hs
    · have := Nat.mul_le_mul_right (D * 2) (show 2 * roundSig m d + 1 ≤ 2 ^ 54 - 3 by omega)
      omega
    · rw [hs] at hlo heven
      omega
    · rw [hs] at hhi
      omega
  · have : 2 ^ (2044 + d + 2) ≤ 2 ^ (roundExp m d + d) := Nat.pow_le_pow_right two_pos (by omega)
    rw [Nat.pow_add _ _ 2] at this
    generalize 2 ^ (2044 + d) = D at *
    omega

/-- A pattern at or above infinity's is cut down to infinity's, which is not finite. -/
theorem isFinite_round_iff (neg : Bool) (m d : Nat) : isFinite (round neg m d) = true ↔ m < overflowBound d := by
  rw [← pattern_lt_infinity_iff, round_eq, isFinite_ofSignMag neg (by omega)]
  omega

/-- A finite result's magnitude is its significand at its place. -/
theorem round_eq_of_finite {neg : Bool} {m d : Nat} (h : isFinite (round neg m d) = true) :
    round neg m d = ofSignMag neg (roundExp m d * 2 ^ 52 + roundSig m d) := by
  rw [isFinite_round_iff, ← pattern_lt_infinity_iff] at h
  rw [round_eq, Nat.min_eq_left h.le]

/-! ### Nearness -/

/-- `v` is at least as near to `e` as `w` is; if `w` is another value just as near, the tie went to `v` because `v` is even. -/
def NearestEven (even : Prop) (e v w : Int) : Prop := |v - e| ≤ |w - e| ∧ (w ≠ v → |v - e| = |w - e| → even)

theorem NearestEven.neg {even : Prop} {e v w : Int} (h : NearestEven even e v w) : NearestEven even (-e) (-v) (-w) := by
  have habs (a : Int) : |(-a) - (-e)| = |a - e| := by rw [neg_sub_neg, abs_sub_comm]
  obtain ⟨hle, htie⟩ := h
  rw [NearestEven, habs, habs]
  exact ⟨hle, fun hne => htie (fun h => hne (congrArg _ h))⟩

/-- What lies beyond a candidate, seen from `e`, is farther still. -/
theorem NearestEven.of_beyond {even : Prop} {e v u w : Int} (h : NearestEven even e v u) (hwu : w < u) (hue : u ≤ e) :
    NearestEven even e v w := by
  have hw : |w - e| = e - w := by rw [abs_sub_comm, abs_of_nonneg (by omega)]
  have hu : |u - e| = e - u := by rw [abs_sub_comm, abs_of_nonneg (by omega)]
  obtain ⟨hle, -⟩ := h
  rw [hu] at hle
  rw [NearestEven, hw]
  exact ⟨by omega, fun _ heq => by omega⟩

/-- Among the multiples of `2^k`, `roundShift` picks the nearest one, on ties the even one. -/
theorem roundShift_nearestEven (m k j : Nat) :
    NearestEven (roundShift m k % 2 = 0) m ((roundShift m k * 2 ^ k : Nat) : Int) ((j * 2 ^ k : Nat) : Int) := by
  obtain ⟨hlo, hhi, heven⟩ := roundShift_bounds m k
  generalize roundShift m k = q at *
  have hP := Nat.two_pow_pos k
  generalize 2 ^ k = P at *
  have e1 : (2 * q + 1) * P = 2 * (q * P) + P := by ring
  have e2 : 2 * q * P = 2 * (q * P) := by ring
  rw [e1] at hlo heven
  rw [e2] at hhi heven
  have hv := abs_cases (((q * P : Nat) : Int) - m)
  have hw := abs_cases (((j * P : Nat) : Int) - m)
  rcases Nat.lt_trichotomy j q with hj | rfl | hj
  · have := Nat.mul_le_mul_right P (Nat.succ_le_of_lt hj)
    rw [Nat.succ_mul] at this
    exact ⟨by omega, fun _ heq => heven (by omega)⟩
  · exact ⟨le_rfl, fun hne => absurd rfl hne⟩
  · have := Nat.mul_le_mul_right P (Nat.succ_le_of_lt hj)
    rw [Nat.succ_mul] at this
    exact ⟨by omega, fun _ heq => heven (by omega)⟩

/-- No magnitude with 53 significant bits is nearer to `m` than the rounded one. Magnitudes that are no multiple of the
rounding place lie below `2^52` of it, where the exact magnitude does not. -/
theorem roundSig_nearestEven (m d : Nat) {w : Nat} (hw : Representable w) :
    NearestEven (roundSig m d % 2 = 0) m ((roundSig m d * 2 ^ roundPlace m d : Nat) : Int) ((w * 2 ^ d : Nat) : Int) := by
  obtain ⟨c, e, hc, rfl⟩ := hw
  by_cases he : roundExp m d ≤ e
  · have hmul : c * 2 ^ e * 2 ^ d = c * 2 ^ (e - roundExp m d) * 2 ^ roundPlace m d := by
      rw [Nat.mul_assoc, Nat.mul_assoc, ← Nat.pow_add, ← Nat.pow_add, roundPlace_eq m d]
      congr 2; omega
    rw [hmul]
    exact roundShift_nearestEven m _ _
  · have hm := le_of_roundExp_pos m d (by omega)
    have hlt : c * 2 ^ e * 2 ^ d < 2 ^ 52 * 2 ^ roundPlace m d :=
      calc c * 2 ^ e * 2 ^ d = c * 2 ^ (e + d) := by rw [Nat.mul_assoc, ← Nat.pow_add]
        _ < 2 ^ 53 * 2 ^ (e + d) := Nat.mul_lt_mul_of_pos_right hc (Nat.two_pow_pos _)
        _ = 2 ^ 52 * 2 ^ (e + 1 + d) := by rw [← Nat.pow_add, ← Nat.pow_add]; congr 1; omega
        _ ≤ 2 ^ 52 * 2 ^ roundPlace m d :=
          Nat.mul_le_mul_left _ (Nat.pow_le_pow_right two_pos (by have := roundPlace_eq m d; omega))
    exact (roundShift_nearestEven m _ (2 ^ 52)).of_beyond (by exact_mod_cast hlt) (by exact_mod_cast hm)

/-! ### Signed values -/

/-- A sign and a magnitude as an integer. -/
def signed (neg : Bool) (m : Nat) : Int := if neg then -(m : Int) else m

theorem toInt_eq_signed (x : F64) : toInt x = signed (sign x) (units x) := rfl

theorem signed_mul (neg : Bool) (m k : Nat) : signed neg m * k = signed neg (m * k) := by cases neg <;> simp [signed]

theorem natAbs_signed (neg : Bool) (m : Nat) : (signed neg m).natAbs = m := by cases neg <;> simp [signed]

theorem signed_decide_natAbs (e : Int) : signed (decide (e < 0)) e.natAbs = e := by
  by_cases h : e < 0
  · rw [decide_eq_true h, signed, if_pos rfl]; omega
  · rw [decide_eq_false h, signed, if_neg Bool.false_ne_true]; omega

/-- The sign of a product is the exclusive or of the signs. -/
theorem signed_mul_signed (a b : Bool) (m k : Nat) : signed a m * signed b k = signed (a != b) (m * k) := by
  cases a <;> cases b <;> simp [signed]

/-- Nearest among magnitudes is nearest among signed values: a value of the other sign is beyond 0. -/
theorem nearestEven_signed {even : Prop} {m v w : Nat} (neg b : Bool) (hw : NearestEven even m v w)
    (h0 : NearestEven even m v (0 : Nat)) :
    NearestEven even (signed neg m) (signed neg v) (signed b w) := by
  have hopp : NearestEven even m v (-(w : Int)) := by
    rcases Nat.eq_zero_or_pos w with rfl | hpos
    · simpa using h0
    · exact h0.of_beyond (by omega) (by omega)
  cases neg <;> cases b
  · exact hw
  · exact hopp
  · simpa [signed] using hopp.neg
  · exact hw.neg

/-! ### `round` rounds to nearest, ties to even -/

/-- `r` is the exact value `e`, counted in units of 2^-(1074+d), rounded to nearest with ties to even: finite exactly when `|e|` is
below the midpoint of overflow, and then no finite value is nearer. -/
def RoundsToNearestEven (d : Nat) (e : Int) (r : F64) : Prop :=
  (isFinite r = true ↔ e.natAbs < overflowBound d) ∧
  (isFinite r = true → ∀ z, isFinite z = true →
    NearestEven (r.getLsbD 0 = false) e (toInt r * (2 ^ d : Nat)) (toInt z * (2 ^ d : Nat)))

theorem round_roundsToNearestEven (neg : Bool) (m d : Nat) : RoundsToNearestEven d (signed neg m) (round neg m d) := by
  refine ⟨by rw [natAbs_signed, isFinite_round_iff], fun hfin z _ => ?_⟩
  have hlt := (pattern_lt_infinity_iff m d).2 ((isFinite_round_iff neg m d).1 hfin)
  have hpat : roundExp m d * 2 ^ 52 + roundSig m d < 2 ^ 63 := by omega
  have hr := round_eq_of_finite hfin
  have hsign : sign (round neg m d) = neg := by rw [hr, sign_ofSignMag neg hpat]
  have hunits : units (round neg m d) = roundSig m d * 2 ^ roundExp m d := by
    rw [hr, units_ofSignMag neg (roundSig_le m d) _ hpat]
    exact (Nat.eq_zero_or_pos _).imp_right (le_roundSig m d)
  have hval : toInt (round neg m d) * (2 ^ d : Nat) = signed neg (roundSig m d * 2 ^ roundPlace m d) := by
    rw [toInt_eq_signed, hsign, hunits, signed_mul, Nat.mul_assoc, ← Nat.pow_add, roundPlace_eq]
  have heven : ((round neg m d).getLsbD 0 = false) = (roundSig m d % 2 = 0) := by
    rw [hr, getLsbD_zero_ofSignMag neg hpat, decide_eq_false_iff_not]
    exact propext (by omega)
  rw [hval, heven, toInt_eq_signed z, signed_mul]
  refine nearestEven_signed neg (sign z) (roundSig_nearestEven m d (units_representable z)) ?_
  simpa using roundSig_nearestEven m d representable_zero

/-! ### The operations -/

theorem fmul_roundsToNearestEven {x y : F64} (hx : isFinite x = true) (hy : isFinite y = true) :
    RoundsToNearestEven 1074 (toInt x * toInt y) (fmul x y) := by
  rw [fmul_finite x y hx hy, toInt_eq_signed, toInt_eq_signed, signed_mul_signed]
  exact round_roundsToNearestEven _ _ _

theorem fadd_roundsToNearestEven {x y : F64} (hx : isFinite x = true) (hy : isFinite y = true) :
    RoundsToNearestEven 0 (toInt x + toInt y) (fadd x y) := by
  rw [fadd_finite x y hx hy]
  generalize toInt x + toInt y = e
  split
  · next h =>
    have hzero : signed (sign x && sign y) 0 = 0 := by cases sign x && sign y <;> rfl
    simpa [h, hzero] using round_roundsToNearestEven (sign x && sign y) 0 0
  · simpa [signed_decide_natAbs] using round_roundsToNearestEven (decide (e < 0)) e.natAbs 0

theorem fsub_roundsToNearestEven {x y : F64} (hx : isFinite x = true) (hy : isFinite y = true) :
    RoundsToNearestEven 0 (toInt x - toInt y) (fsub x y) := by
  have h := fadd_roundsToNearestEven hx ((isFinite_negate y).trans hy)
  rwa [toInt_negate, ← sub_eq_add_neg] at h

/-- The bound on the exact value, as an absolute value of integers. -/
theorem natAbs_lt_overflowBound_iff (e : Int) (d : Nat) :
    e.natAbs < overflowBound d ↔ |e| < (2 ^ 54 - 1) * 2 ^ 2044 * 2 ^ d := by
  have hcast : ((overflowBound d : Nat) : Int) = (2 ^ 54 - 1) * 2 ^ 2044 * 2 ^ d := by
    simp only [overflowBound, Nat.cast_mul, Nat.cast_pow, Nat.cast_ofNat]; rfl
  rw [← hcast, ← Int.natCast_natAbs, Int.ofNat_lt]

/-- Settles O37: sums and differences are counted in the units of their operands. -/
theorem addRoundsToNearestEven : Obligations.AddRoundsToNearestEven := by
  intro x y r e hx hy hr
  have h : RoundsToNearestEven 0 e r := by
    rcases hr with ⟨rfl, rfl⟩ | ⟨rfl, rfl⟩
    · exact fadd_roundsToNearestEven hx hy
    · exact fsub_roundsToNearestEven hx hy
  obtain ⟨hfin, hnear⟩ := h
  rw [natAbs_lt_overflowBound_iff, pow_zero, mul_one] at hfin
  refine ⟨hfin, fun hr z hz => ?_⟩
  simpa [NearestEven] using hnear hr z hz

/-- Settles O38: a product is counted in the square of the unit, so the finite values beside it are scaled by 2^1074. -/
theorem mulRoundsToNearestEven : Obligations.MulRoundsToNearestEven := by
  intro x y hx hy
  obtain ⟨hfin, hnear⟩ := fmul_roundsToNearestEven hx hy
  rw [natAbs_lt_overflowBound_iff] at hfin
  refine ⟨hfin, fun hr z hz => ?_⟩
  obtain ⟨hle, htie⟩ := hnear hr z hz
  rw [Nat.cast_pow, Nat.cast_ofNat] at hle htie
  exact ⟨hle, fun hne => htie fun h => hne (mul_right_cancel₀ (by positivity) h)⟩

end Sys2Proof.F64
end

section
/-! PROOFS. The registers at their addresses (10_state.md R20 to R54): what an access there does, CTRL and STATUS bit by bit,
the interrupt output, reset. -/

namespace Sys2Proof.Machine

/-! ### The register table -/

theorem Reg.ofOffset_addr (r : Reg) : Reg.ofOffset r.addr.toNat = some r := by cases r <;> rfl

/-- A register stands at one offset only. -/
theorem Reg.addr_of_ofOffset {addr : Word} {r : Reg} (h : Reg.ofOffset addr.toNat = some r) : addr = r.addr := by
  refine BitVec.eq_of_toNat_eq ?_
  generalize addr.toNat = offset at h
  unfold Reg.ofOffset at h
  split at h <;> cases h <;> rfl

/-- A register's address is an aligned one of the register window (20_memory.md R61, R64). -/
theorem Reg.addr_legal (r : Reg) : r.addr.toNat < 0x1000 ∧ r.addr.toNat % 4 = 0 := by cases r <;> decide

/-- A write to a register, unless BUSY guards it (70_reset_and_hazards.md R250). -/
theorem transact_write_addr (s : State) (r : Reg) (w : Word) (hb : r.guarded = false ∨ s.status.busy = false) :
    s.transact (.write r.addr .four w) = (s.writeReg r w, { resp := .okay, data := 0#32 }) :=
  transact_write_register s r.addr w r r.addr_legal.1 r.addr_legal.2 r.ofOffset_addr hb

/-- A read of a register, whatever BUSY is (20_memory.md R72). -/
theorem transact_read_addr (s : State) (r : Reg) :
    s.transact (.read r.addr .four) = (s, { resp := .okay, data := s.readReg r }) :=
  transact_read_register s r.addr r r.addr_legal.1 r.addr_legal.2 r.ofOffset_addr

/-- A read after a write that BUSY does not guard. -/
theorem transact_read_write_addr (s : State) (r : Reg) (w : Word) (hb : r.guarded = false ∨ s.status.busy = false) :
    ((s.transact (.write r.addr .four w)).1.transact (.read r.addr .four)).2 =
      { resp := .okay, data := (s.writeReg r w).readReg r } := by
  rw [transact_write_addr s r w hb, transact_read_addr]

/-- Accesses to a reserved offset (10_state.md R48). -/
theorem transact_reserved (s : State) (addr w : Word) (h : addr.toNat < 0x1000) (ha : addr.toNat % 4 = 0)
    (hr : Reg.ofOffset addr.toNat = none) :
    s.transact (.write addr .four w) = (s, { resp := .okay, data := 0#32 }) ∧
      s.transact (.read addr .four) = (s, { resp := .okay, data := 0#32 }) := by
  simp [State.transact, State.busRead, State.busWrite, route_register _ _ h ha, hr]

/-- Settles O56: the offset is reserved, or it is a register's, and then a read-only one's. -/
theorem readOnlyAndReservedOffsets : Obligations.ReadOnlyAndReservedOffsets := by
  intro s addr w h ha hmem
  cases hr : Reg.ofOffset addr.toNat with
  | none =>
    have hne (r : Reg) : addr ≠ r.addr := by
      rintro rfl
      simp [r.ofOffset_addr] at hr
    have hid : addr ≠ 0x0#32 := hne .id
    have hmaxbps : addr ≠ 0x4#32 := hne .maxbps
    have hcapByte : addr ≠ 0x8#32 := hne .capByte
    have hcapVal : addr ≠ 0xC#32 := hne .capVal
    have hcapSym : addr ≠ 0x10#32 := hne .capSym
    simpa [hid, hmaxbps, hcapByte, hcapVal, hcapSym] using transact_reserved s addr w h ha hr
  | some r =>
    obtain rfl := Reg.addr_of_ofOffset hr
    cases r
    case id | maxbps | capByte | capVal | capSym =>
      exact ⟨transact_write_addr s _ w (.inl rfl), transact_read_addr s _⟩
    all_goals exact absurd (by decide) hmem

/-! ### CTRL and STATUS as words -/

/-- The bits of CTRL (10_state.md R26). -/
theorem Ctrl.getLsbD_toWord (c : Ctrl) (i : Nat) :
    c.toWord.getLsbD i = [c.ie, c.trunc, c.clamp, c.legacyOdd].getD i false := by
  simp only [Ctrl.toWord, BitVec.getLsbD_append, BitVec.getLsbD_ofBool]
  match i with
  | 0 | 1 | 2 | 3 => rfl
  | i + 4 => simp

theorem Ctrl.extractLsb'_toWord (c : Ctrl) : c.toWord.extractLsb' 4 28 = 0#28 := by
  refine BitVec.eq_of_getLsbD_eq fun i _ => ?_
  simp [Ctrl.getLsbD_toWord]

/-- CTRL reads back bits 3:0 of what was written. -/
theorem Ctrl.toWord_ofWord (w : Word) : (Ctrl.ofWord w).toWord = w &&& 0xF#32 := by
  refine BitVec.eq_of_getLsbD_eq fun i hi => ?_
  rw [Ctrl.getLsbD_toWord]
  match i with
  | 0 | 1 | 2 | 3 => simp [Ctrl.ofWord]
  | i + 4 =>
    have hmask : ∀ j < 28, (0xF#32).getLsbD (j + 4) = false := by decide
    rw [BitVec.getLsbD_and, hmask i (by omega), Bool.and_false]
    rfl

/-- The flags of STATUS and its reserved bit 7 (10_state.md R31). -/
theorem Status.getLsbD_toWord (st : Status) (i : Nat) (hi : i < 8) :
    st.toWord.getLsbD i =
      [st.busy, st.done, st.err, st.ovr, st.truncSeen, st.oorSeen, st.nfSeen].getD i false := by
  simp only [Status.toWord, BitVec.getLsbD_append, BitVec.getLsbD_ofBool]
  match i with
  | 0 | 1 | 2 | 3 | 4 | 5 | 6 | 7 => rfl

theorem Status.extractLsb'_toWord_errcode (st : Status) : st.toWord.extractLsb' 8 4 = st.errcode := by
  refine BitVec.eq_of_getLsbD_eq fun i hi => ?_
  simp only [BitVec.getLsbD_extractLsb', Status.toWord, BitVec.getLsbD_append]
  match i with
  | 0 | 1 | 2 | 3 => rfl

theorem Status.extractLsb'_toWord_reserved (st : Status) : st.toWord.extractLsb' 12 20 = 0#20 := by
  refine BitVec.eq_of_getLsbD_eq fun i _ => ?_
  simp only [BitVec.getLsbD_extractLsb', Status.toWord, BitVec.getLsbD_append]
  simp

/-- Settles O57, by the bits of the word. -/
theorem statusReadLayout : Obligations.StatusReadLayout := by
  intro s
  have hbit := s.status.getLsbD_toWord
  exact ⟨s.status.toWord, transact_read_addr s .status, hbit 0 (by decide), hbit 1 (by decide), hbit 2 (by decide),
    hbit 3 (by decide), hbit 4 (by decide), hbit 5 (by decide), hbit 6 (by decide), hbit 7 (by decide),
    s.status.extractLsb'_toWord_errcode, s.status.extractLsb'_toWord_reserved⟩

/-! ### Writes, completion, reset -/

/-- Settles O54: the write is never guarded, and each field is the one of `Status.writeOneToClear`. -/
theorem statusWriteClearsOnes : Obligations.StatusWriteClearsOnes := by
  intro s w
  exact ⟨_, transact_write_addr s .status w (.inl rfl), rfl, rfl, rfl, rfl, rfl, rfl, rfl, rfl, rfl⟩

/-- A command's completion leaves CTRL and CMD, and sets DONE (60_exceptions.md R206, R207). -/
theorem exec_ctrl_cmd_done {i : Instr} {s t : State} (h : exec i s = .next t) :
    t.ctrl = s.ctrl ∧ t.cmd = s.cmd ∧ t.status.done = true := by
  obtain ⟨r, hr, hok⟩ := exec_eq_complete i s
  cases hr.symm.trans h
  cases r with
  | error e => exact ⟨rfl, rfl, rfl⟩
  | ok u =>
    rw [complete_ok, hok u rfl]
    exact ⟨rfl, rfl, rfl⟩

/-- Settles O55, register by register. -/
theorem idleRegisterWriteStores : Obligations.IdleRegisterWriteStores := by
  refine ⟨fun s w hb => ?_, fun s => ?_⟩
  · have hwrite (r : Reg) := transact_write_addr s r w (.inr hb)
    have hback (r : Reg) := transact_read_write_addr s r w (.inr hb)
    refine ⟨hwrite .ctrl, hwrite .byteLen, hwrite .valCnt, hwrite .symCnt, hwrite .sigLen, hwrite .rotCosLo,
      hwrite .rotCosHi, hwrite .rotSinLo, hwrite .rotSinHi, fun addr haddr => ?_, hback .cmd⟩
    simp only [List.mem_cons, List.not_mem_nil, or_false] at haddr
    rcases haddr with rfl | rfl | rfl | rfl | rfl | rfl | rfl | rfl | rfl
    · rw [if_pos rfl, ← Ctrl.toWord_ofWord]
      exact hback .ctrl
    · exact hback .byteLen
    · exact hback .valCnt
    · exact hback .symCnt
    · exact hback .sigLen
    · exact hback .rotCosLo
    · exact hback .rotCosHi
    · exact hback .rotSinLo
    · exact hback .rotSinHi
  · have hread := transact_read_addr s
    have hbit := s.ctrl.getLsbD_toWord
    refine ⟨⟨s.ctrl.toWord, hread .ctrl, hbit 0, hbit 1, hbit 2, hbit 3, s.ctrl.extractLsb'_toWord⟩, hread .cmd,
      hread .byteLen, hread .valCnt, hread .symCnt, hread .sigLen, hread .rotCosLo, hread .rotCosHi, hread .rotSinLo,
      hread .rotSinHi, fun i t ht => ?_⟩
    obtain ⟨-, hcmd, -⟩ := exec_ctrl_cmd_done ht
    rw [← hcmd]
    exact transact_read_addr t .cmd

/-- irq is low when one of its two inputs is. -/
theorem irq_eq_false {s : State} (h : s.ctrl.ie = false ∨ s.status.done = false) : s.irq = false := by
  rcases h with h | h <;> simp [State.irq, h]

/-- Settles O59: DONE or CTRL.IE is 0 after each of the four ways down. -/
theorem irqFollowsDone : Obligations.IrqFollowsDone := by
  intro s w
  refine ⟨by simp [State.irq], fun i t ht => ?_, fun hw => ?_, fun hb => ?_, fun hb hw => ?_, rfl, rfl⟩
  · obtain ⟨hctrl, -, hdone⟩ := exec_ctrl_cmd_done ht
    rw [State.irq, hctrl, hdone, Bool.and_true]
  · have hwrite : s.transact (.write 0x24#32 .four w) = _ := transact_write_addr s .status w (.inl rfl)
    rw [hwrite]
    exact irq_eq_false (.inr (by simp [State.writeReg, hw]))
  · have hwrite : s.transact (.write 0x28#32 .four w) = _ := transact_write_addr s .cmd w (.inr hb)
    rw [hwrite]
    exact irq_eq_false (.inr rfl)
  · have hwrite : s.transact (.write 0x20#32 .four w) = _ := transact_write_addr s .ctrl w (.inr hb)
    rw [hwrite]
    exact irq_eq_false (.inl hw)

/-- A register after reset (10_state.md R20): the parameters are constants, every other one is that of `State.reset`. -/
theorem readReg_resetInput (s : State) (r : Reg) :
    s.resetInput.readReg r = if r ∈ [.maxbps, .capByte, .capVal, .capSym] then s.readReg r else State.reset.readReg r := by
  cases r <;> rfl

/-- Settles O60: the step is `State.resetInput`, whose registers do not depend on what came before. -/
theorem resetSetsEveryRegister : Obligations.ResetSetsEveryRegister := by
  intro s rest hs
  refine ⟨({ s with script := rest } : State).resetInput, by simp [step, advance, hs], rfl, fun r => ?_⟩
  rw [readReg_resetInput]
  cases r <;> rfl

end Sys2Proof.Machine
end

section
/-! PROOFS. Everything a step can do to STATUS, and which of its bits rise or fall by it (10_state.md R33, R35 to R38). -/

namespace Sys2Proof.Machine

/-- A command leaves OVR and clears no other sticky flag (10_state.md R35 to R38). -/
structure Status.KeepsSticky (st st' : Status) : Prop where
  ovr : st'.ovr = st.ovr
  truncSeen : st.truncSeen = true → st'.truncSeen = true
  oorSeen : st.oorSeen = true → st'.oorSeen = true
  nfSeen : st.nfSeen = true → st'.nfSeen = true

namespace Status.KeepsSticky
variable (st : Status)

theorem refl : st.KeepsSticky st := ⟨rfl, id, id, id⟩

theorem truncated : st.KeepsSticky st.truncated := ⟨rfl, fun _ => rfl, id, id⟩

theorem sliced (oor nf : Bool) : st.KeepsSticky (st.sliced oor nf) :=
  ⟨rfl, id, fun h => by simp [h], fun h => by simp [h]⟩

theorem failed (e : ErrCode) : st.KeepsSticky (st.failed e) := ⟨rfl, id, id, id⟩

theorem succeeded {st st' : Status} (h : st.KeepsSticky st') : st.KeepsSticky st'.succeeded :=
  ⟨h.ovr, h.truncSeen, h.oorSeen, h.nfSeen⟩

end Status.KeepsSticky

theorem serCommand_status {s t : State} (h : serCommand s = .ok t) : t.status = s.status := by
  simp only [serCommand, if_error_eq_ok, Except.ok.injEq] at h
  obtain ⟨-, rfl⟩ := h
  rfl

theorem deserCommand_keepsSticky {s t : State} (h : deserCommand s = .ok t) : s.status.KeepsSticky t.status := by
  simp only [deserCommand] at h
  split_ifs at h <;> cases h
  · exact .truncated _
  · exact .refl _

/-- What a command completes with, when it does not fail, has the sticky flags it began with and perhaps more. -/
theorem exec_completes_keepsSticky (i : Instr) (s : State) :
    ∃ r, exec i s = .next (s.complete r) ∧ ∀ t, r = .ok t → s.status.KeepsSticky t.status := by
  cases i with
  | nop n => exact ⟨.ok s, rfl, by rintro t ⟨⟩; exact .refl _⟩
  | pack n =>
    refine ⟨packCommand n s, rfl, fun t ht => ?_⟩
    obtain ⟨-, -, -, rfl⟩ := (packCommand_ok n s t).1 ht
    exact .refl _
  | map n =>
    refine ⟨mapCommand n s, rfl, fun t ht => ?_⟩
    obtain ⟨-, -, -, rfl⟩ := (mapCommand_ok n s t).1 ht
    exact .refl _
  | slice n =>
    refine ⟨sliceCommand n s, rfl, fun t ht => ?_⟩
    obtain ⟨-, -, -, rfl⟩ := (sliceCommand_ok n s t).1 ht
    exact .sliced _ _ _
  | unpack n =>
    refine ⟨unpackCommand n s, rfl, fun t ht => ?_⟩
    obtain ⟨-, -, -, rfl⟩ := (unpackCommand_ok n s t).1 ht
    exact .refl _
  | mod n =>
    refine ⟨modCommand n s, rfl, fun t ht => ?_⟩
    obtain ⟨-, -, -, -, rfl⟩ := (modCommand_ok n s t).1 ht
    exact .refl _
  | demod n =>
    refine ⟨demodCommand n s, rfl, fun t ht => ?_⟩
    obtain ⟨-, -, -, -, rfl⟩ := (demodCommand_ok n s t).1 ht
    exact .sliced _ _ _
  | ser n => exact ⟨serCommand s, rfl, fun t ht => serCommand_status ht ▸ .refl _⟩
  | deser n => exact ⟨deserCommand s, rfl, fun t ht => deserCommand_keepsSticky ht⟩

/-- STATUS after a completion (60_exceptions.md R206, R207). -/
structure Status.Completes (st st' : Status) : Prop extends st.KeepsSticky st' where
  busy : st'.busy = false
  done : st'.done = true

theorem complete_completes {s : State} {r : Except ErrCode State}
    (hr : ∀ t, r = .ok t → s.status.KeepsSticky t.status) : s.status.Completes (s.complete r).status := by
  refine ⟨?_, complete_busy s r, complete_done s r⟩
  cases r with
  | error e => exact .failed _ e
  | ok t => exact (hr t rfl).succeeded

theorem engineStep_completes {s t : State} (h : engineStep s = .next t) : s.status.Completes t.status := by
  cases hd : decode s.cmd with
  | ok i =>
    obtain ⟨r, hr, hok⟩ := exec_completes_keepsSticky i s
    simp only [engineStep, hd, hr, Host.Outcome.next.injEq] at h
    exact h ▸ complete_completes hok
  | error e =>
    simp only [engineStep, hd, Host.Outcome.next.injEq] at h
    exact h ▸ complete_completes (by rintro t ⟨⟩)

/-- The STATUS a register write leaves: only STATUS and CMD change it. -/
theorem writeReg_status_cases (s : State) (r : Reg) (w : Word) :
    (s.writeReg r w).status = s.status ∨ (r = .status ∧ (s.writeReg r w).status = s.status.writeOneToClear w) ∨
      (r = .cmd ∧ (s.writeReg r w).status = s.status.accepted) := by
  cases r
  case status => exact .inr (.inl ⟨rfl, rfl⟩)
  case cmd => exact .inr (.inr ⟨rfl, rfl⟩)
  all_goals exact .inl rfl

/-- Everything the host can do to STATUS: nothing, a refused access, a write to it, the acceptance of a command. -/
theorem transact_status_cases (s : State) (tx : Txn) :
    (s.transact tx).1.status = s.status ∨
    (s.status.busy = true ∧ s.transact tx = (s.refuse, failedReply .slverr)) ∨
    (∃ v, tx = .write 0x24#32 .four v ∧ (s.transact tx).1.status = s.status.writeOneToClear v) ∨
    (s.transact tx).1.status = s.status.accepted := by
  rcases transact_cases s tx with h | h | ⟨addr, v, r, htx, hreg, -, h⟩ | ⟨addr, size, v, -, -, -, h⟩
  · exact .inl (by rw [h])
  · exact .inr (.inl h)
  · rw [h]
    rcases writeReg_status_cases s r v with hst | ⟨rfl, hst⟩ | ⟨-, hst⟩
    · exact .inl hst
    · obtain rfl : addr = 0x24#32 := Reg.addr_of_ofOffset hreg
      exact .inr (.inr (.inl ⟨v, htx, hst⟩))
    · exact .inr (.inr (.inr hst))
  · exact .inl (by rw [h]; rfl)

/-- What a step does to STATUS. -/
inductive StatusEffect (s t : State) : Prop
  | unchanged (h : t.status = s.status)
  | completed (hb : s.status.busy = true) (h : s.status.Completes t.status)
  | refused (hb : s.status.busy = true) (hs : ∃ tx rest, s.script = .bus tx :: rest)
      (h : t.status = s.status.overrun) (hreply : t.reply = some (failedReply .slverr))
  | written (v : Word) (hs : ∃ rest, s.script = .bus (.write 0x24#32 .four v) :: rest)
      (h : t.status = s.status.writeOneToClear v)
  | accepted (h : t.status = s.status.accepted)
  | reset (hs : ∃ rest, s.script = .reset :: rest) (h : t.status = Status.reset)

/-- The engine's turn, in a state with the same STATUS as `s`. -/
theorem engineTurn_statusEffect {s u t : State} (hu : u.status = s.status) (h : engineTurn u = .next t) :
    StatusEffect s t := by
  rcases engineTurn_cases u with ⟨-, he⟩ | ⟨hb, he⟩
  · cases he.symm.trans h
    exact .unchanged hu
  · exact .completed (hu ▸ hb) (hu ▸ engineStep_completes (he.symm.trans h))

/-- A host transaction, taken off the script. -/
theorem hostStep_statusEffect {s : State} {tx : Txn} {rest : List Event} (hs : s.script = .bus tx :: rest) :
    StatusEffect s (({ s with script := rest } : State).hostStep tx) := by
  rcases transact_status_cases { s with script := rest } tx with h | ⟨hb, h⟩ | ⟨v, rfl, h⟩ | h
  · exact .unchanged h
  · exact .refused hb ⟨tx, rest, hs⟩ (by rw [State.hostStep, h]; rfl) (by rw [State.hostStep, h])
  · exact .written v ⟨rest, hs⟩ h
  · exact .accepted h

/-- Every step does one of the six things to STATUS. -/
theorem step_statusEffect {s t : State} (ht : step s = .next t) : StatusEffect s t := by
  rcases step_cases s with ⟨-, he⟩ | ⟨tx, rest, hs, he⟩ | ⟨rest, -, hb, he⟩ | ⟨rest, -, -, he⟩ | ⟨rest, -, he⟩ |
    ⟨rest, hs, he⟩
  · exact engineTurn_statusEffect rfl (he.symm.trans ht)
  · cases he.symm.trans ht
    exact hostStep_statusEffect hs
  · exact .completed hb (engineStep_completes (he.symm.trans ht))
  · cases he.symm.trans ht
    rw [hostStep_readStatus]
    exact .unchanged rfl
  · exact engineTurn_statusEffect (u := { s with script := rest }) rfl (he.symm.trans ht)
  · cases he.symm.trans ht
    exact .reset ⟨rest, hs⟩ rfl

/-- Settles O14: of the six things a step can do to STATUS only a write to it and reset clear a sticky flag. -/
theorem stickyFlagsClearedOnlyByHostOrReset : Obligations.StickyFlagsClearedOnlyByHostOrReset := by
  intro s t ht hclear
  cases step_statusEffect ht with
  | unchanged h => simp [h] at hclear
  | completed hb h =>
    rcases hclear with ⟨h1, h0⟩ | ⟨h1, h0⟩ | ⟨h1, h0⟩ | ⟨h1, h0⟩
    · simp [h.ovr, h1] at h0
    · simp [h.truncSeen h1] at h0
    · simp [h.oorSeen h1] at h0
    · simp [h.nfSeen h1] at h0
  | refused hb hs h hreply => simp [h] at hclear
  | written v hs h =>
    obtain ⟨rest, hs⟩ := hs
    refine .inr ⟨rest, v, hs, ?_, ?_, ?_, ?_⟩ <;> rintro ⟨h1, h0⟩ <;> simpa [h, h1] using h0
  | accepted h => simp [h] at hclear
  | reset hs h => exact .inl hs

/-- Settles O15: of the six things a step can do to STATUS only a completion sets DONE. -/
theorem doneRisesOnlyAtCompletion : Obligations.DoneRisesOnlyAtCompletion := by
  intro s t ht h0 h1
  cases step_statusEffect ht with
  | unchanged h => simp [h, h0] at h1
  | completed hb h => exact ⟨hb, h.busy⟩
  | refused hb hs h hreply => simp [h, h0] at h1
  | written v hs h => simp [h, h0] at h1
  | accepted h => simp [h] at h1
  | reset hs h => simp [h, Status.reset] at h1

/-- Settles O16: of the six things a step can do to STATUS only a refused access sets OVR. -/
theorem ovrRisesOnlyWhileBusy : Obligations.OvrRisesOnlyWhileBusy := by
  intro s t ht h0 h1
  cases step_statusEffect ht with
  | unchanged h => simp [h, h0] at h1
  | completed hb h => simp [h.ovr, h0] at h1
  | refused hb hs h hreply => exact ⟨hb, hs, hreply⟩
  | written v hs h => simp [h, h0] at h1
  | accepted h => simp [h, h0] at h1
  | reset hs h => simp [h, Status.reset] at h1

end Sys2Proof.Machine
end

section
/-! PROOFS. The host's accesses to the memory map (20_memory.md R61 to R78): which of them have no effect, which bytes a buffer
access moves, what a pending command is safe from; and runs, which never stop (R62, 60_exceptions.md R206). -/

namespace Sys2Proof.Machine

/-! ### Runs -/

/-- The engine's step is a completion, so it answers a next state (60_exceptions.md R202, R206). -/
theorem engineStep_next (s : State) : ∃ t, engineStep s = .next t := by
  obtain ⟨r, hr, -⟩ := engineStep_eq_complete s
  exact ⟨_, hr⟩

theorem engineTurn_next (s : State) : ∃ t, engineTurn s = .next t := by
  rcases engineTurn_cases s with ⟨-, he⟩ | ⟨-, he⟩
  · exact ⟨s, he⟩
  · exact he ▸ engineStep_next s

/-- No step meets a fault or a refusal, whatever is at the head of the script. -/
theorem step_next (s : State) : ∃ t, step s = .next t := by
  rcases step_cases s with ⟨-, he⟩ | ⟨tx, rest, -, he⟩ | ⟨rest, -, -, he⟩ | ⟨rest, -, -, he⟩ | ⟨rest, -, he⟩ |
    ⟨rest, -, he⟩
  · exact he ▸ engineTurn_next s
  · exact ⟨_, he⟩
  · exact he ▸ engineStep_next s
  · exact ⟨_, he⟩
  · exact he ▸ engineTurn_next _
  · exact ⟨_, he⟩

/-- Settles O9, by induction on the length of the run. -/
theorem noRunStops : Obligations.NoRunStops := by
  intro s k
  induction k generalizing s with
  | zero => exact ⟨s, run_zero s⟩
  | succ k ih =>
    obtain ⟨t, ht⟩ := step_next s
    exact run_succ ht k ▸ ih t

/-! ### What a transaction leaves unchanged -/

/-- A write to a register that BUSY does not guard reaches only STATUS, and not its BUSY bit (10_state.md R21 to R25, R40). -/
theorem writeReg_unguarded (s : State) (r : Reg) (w : Word) (hr : r.guarded = false) :
    s.writeReg r w = { s with status := (s.writeReg r w).status } ∧
      (s.writeReg r w).status.busy = s.status.busy := by
  cases r
  case id | maxbps | capByte | capVal | capSym | status => exact ⟨rfl, rfl⟩
  all_goals cases hr

/-- Settles O17: with BUSY 1 a transaction does nothing, is refused, or writes a register that BUSY does not guard. -/
theorem pendingCommandInputsAreStable : Obligations.PendingCommandInputsAreStable := by
  intro s tx hb
  rcases transact_cases s tx with h | ⟨-, h⟩ | ⟨-, v, r, -, -, hg, h⟩ | ⟨-, -, -, -, hidle, -, -⟩
  · rw [h]
    exact ⟨rfl, hb⟩
  · rw [h]
    exact ⟨rfl, hb⟩
  · obtain ⟨hframe, hbusy⟩ := writeReg_unguarded s r v (hg.resolve_right (by simp [hb]))
    rw [h]
    exact ⟨hframe, hbusy.trans hb⟩
  · simp [hb] at hidle

/-- Settles O58: of everything a transaction can do, a read can only do nothing or be refused. -/
theorem readsHaveNoSideEffect : Obligations.ReadsHaveNoSideEffect := by
  intro s addr size
  rcases transact_cases s (.read addr size) with h | ⟨hb, h⟩ | ⟨_, _, _, htx, -⟩ | ⟨_, _, _, htx, -⟩
  · exact .inl h
  · exact .inr ⟨hb, by rw [h]; rfl, by rw [h]; rfl⟩
  · cases htx
  · cases htx

/-! ### Accesses without effect -/

/-- Outside the register window and the three buffer windows nothing is mapped (20_memory.md R61). -/
theorem mappedAddr_eq_false {p : Params} {a : Nat} (hreg : 0x1000 ≤ a)
    (hbyte : ¬(0x10000 ≤ a ∧ a < 0x10000 + p.byteCap)) (hval : ¬(0x100000 ≤ a ∧ a < 0x100000 + 4 * p.valCap))
    (hsym : ¬(0x1000000 ≤ a ∧ a < 0x1000000 + 16 * p.symCap)) : mappedAddr p a = false := by
  rw [Bool.eq_false_iff, Ne, mappedAddr_iff, bufferAddr_iff]
  omega

/-- Settles O47: one unmapped byte decides the route, before BUSY is looked at. -/
theorem unmappedAccessGetsDecerr : Obligations.UnmappedAccessGetsDecerr := by
  intro s addr v size j hj hreg hbyte hval hsym
  have hroute := route_unmapped s.params addr size j hj (mappedAddr_eq_false hreg hbyte hval hsym)
  simp [State.transact, State.busRead, State.busWrite, hroute, failedReply]

/-- A mapped access of the wrong size or alignment (20_memory.md R64, R65). -/
theorem route_illegal {p : Params} {addr : Word} {size : Size}
    (hmapped : ∀ j, j < size.bytes → mappedAddr p (addr.toNat + j) = true)
    (hbad : addr.toNat < 0x1000 ∧ (size ≠ .four ∨ addr.toNat % 4 ≠ 0) ∨
      0x1000 ≤ addr.toNat ∧ addr.toNat % size.bytes ≠ 0) : route p addr size = .illegal := by
  rw [route_mapped p addr size hmapped, Config.regsBytes]
  rcases hbad with ⟨hreg, hbad⟩ | ⟨hbuf, hbad⟩
  · rw [if_pos hreg, if_neg (by tauto)]
  · rw [if_neg (by omega), if_neg hbad]

/-- Settles O48: size and alignment decide the route, before BUSY is looked at. -/
theorem misalignedAccessGetsSlverr : Obligations.MisalignedAccessGetsSlverr := by
  intro s addr v size hmapped hbad
  have hroute := route_illegal hmapped hbad
  simp [State.transact, State.busRead, State.busWrite, hroute, failedReply]

/-! ### The bytes of a little-endian number -/

/-- Bit `i` of byte `j` is bit `8j + i` of the number the bytes write (20_memory.md R69). -/
theorem testBit_leValue (bs : List Byte) (j i : Nat) (hj : j < bs.length) (hi : i < 8) :
    (leValue bs).testBit (8 * j + i) = bs[j].getLsbD i := by
  induction bs generalizing j with
  | nil => simp at hj
  | cons b bs ih =>
    have hcons : leValue (b :: bs) = 2 ^ 8 * leValue bs + b.toNat := Nat.add_comm _ _
    rw [hcons, Nat.testBit_two_pow_mul_add _ b.isLt]
    cases j with
    | zero => simp [hi, BitVec.getLsbD]
    | succ j =>
      rw [if_neg (by omega), show 8 * (j + 1) + i - 8 = 8 * j + i by omega]
      exact ih j (by simpa using hj)

/-- Byte `j` of the number read from consecutive addresses is the byte at the `j`-th of them (20_memory.md R67 to R69). -/
theorem extractLsb'_leValue_readBytes {w : Nat} (s : State) (a n j : Nat) (hn : 8 * n ≤ w) (hj : j < n) :
    (BitVec.ofNat w (leValue (s.readBytes a n))).extractLsb' (8 * j) 8 = s.readByte (a + j) := by
  refine BitVec.eq_of_getLsbD_eq fun i hi => ?_
  have hw : 8 * j + i < w := by omega
  rw [BitVec.getLsbD_extractLsb', BitVec.getLsbD_ofNat, testBit_leValue _ j i (by simpa using hj) hi]
  simp [hi, hw, State.readBytes]

/-- Settles O51: VAL words, RE and IM are numbers read from 4 or 8 consecutive addresses. -/
theorem bufferElementsAreLittleEndian : Obligations.BufferElementsAreLittleEndian := by
  intro s k j
  exact ⟨extractLsb'_leValue_readBytes s _ 4 j (by decide), extractLsb'_leValue_readBytes s _ 8 j (by decide),
    extractLsb'_leValue_readBytes s _ 8 j (by decide)⟩

/-! ### Buffer accesses while BUSY is 0 -/

section
variable {s : State} {addr : Word} {size : Size} (hb : s.status.busy = false)
  (hroute : route s.params addr size = .buffer)
include hb hroute

theorem transact_read_buffer : s.transact (.read addr size) =
    (s, { resp := .okay, data := BitVec.ofNat 32 (leValue (s.readBytes addr.toNat size.bytes)) }) := by
  simp [State.transact, State.busRead, hroute, hb]

theorem transact_write_buffer (v : Word) : s.transact (.write addr size v) =
    (s.writeBytes addr.toNat (leBytes size.bytes v), { resp := .okay, data := 0#32 }) := by
  simp [State.transact, State.busWrite, hroute, hb]

end

/-- An access of any size fits the 32-bit datum (20_memory.md R62). -/
theorem Size.bits_le (size : Size) : 8 * size.bytes ≤ 32 := by cases size <;> decide

/-- A read's datum is zero-extended from the bits it moved (20_memory.md R62). -/
theorem ofNat_leValue_readBytes_lt (s : State) (a n : Nat) :
    (BitVec.ofNat 32 (leValue (s.readBytes a n))).toNat < 2 ^ (8 * n) := by
  calc (BitVec.ofNat 32 (leValue (s.readBytes a n))).toNat
      ≤ leValue (s.readBytes a n) := by rw [BitVec.toNat_ofNat]; exact Nat.mod_le _ _
    _ < 256 ^ n := by simpa using leValue_lt (s.readBytes a n)
    _ = 2 ^ (8 * n) := by rw [Nat.pow_mul]

/-- Settles O50: the access is routed to the buffers, where a read reads and a write stores `size` bytes at its address. -/
theorem idleBufferAccessMovesBytes : Obligations.IdleBufferAccessMovesBytes := by
  intro s addr v size hb halign hbuf
  have hroute := route_buffer s.params addr size halign hbuf
  refine ⟨⟨_, transact_read_buffer hb hroute, ofNat_leValue_readBytes_lt _ _ _, fun j hj =>
      extractLsb'_leValue_readBytes s _ _ j size.bits_le hj⟩,
    ⟨_, transact_write_buffer hb hroute v, rfl, fun j hj => ?_, fun a ha => ?_⟩⟩
  · rw [readByte_writeBytes_inside _ _ _ _ (by simpa using hj), getElem_leBytes]
  · exact readByte_writeBytes_outside _ _ _ _ (by simpa using ha)

end Sys2Proof.Machine
end

section
/-! PROOFS. The command word (30_encoding.md R90 to R98): the fields of an encoded command, what the decoder answers, and that
decoder and encoder are inverse to each other. -/

namespace Sys2Proof

/-! ### The fields of a word -/

/-- A word is its three fields, one after the other (30_encoding.md R90). -/
theorem append_fields (w : Word) : w.extractLsb' 14 18 ++ w.extractLsb' 8 6 ++ w.extractLsb' 0 8 = w := by
  rw [BitVec.extractLsb'_append_extractLsb'_eq_extractLsb' (show 14 = 8 + 6 from rfl),
    BitVec.extractLsb'_append_extractLsb'_eq_extractLsb' (show 8 = 0 + 8 from rfl), BitVec.extractLsb'_eq_self]

/-- RSV of an encoded command is 0 (30_encoding.md R93). -/
@[simp] theorem rsvField_encode (i : Instr) : rsvField (encode i) = 0 := by
  rw [rsvField, encode, BitVec.append_assoc, BitVec.extractLsb'_cast, BitVec.extractLsb'_append_eq_left]
  rfl

/-- OPC of an encoded command is its opcode (30_encoding.md R94). -/
@[simp] theorem opcField_encode (i : Instr) : opcField (encode i) = i.opcode.toNat := by
  rw [opcField, encode, BitVec.extractLsb'_append_eq_right]

theorem Instr.opcode_lt (i : Instr) : i.opcode.toNat < 9 := by cases i <;> simp [Instr.opcode]

/-- BPS of an encoded command is the command's, if it fits the six bits (30_encoding.md R91). -/
theorem bpsField_encode {i : Instr} (h : i.WellFormed) : bpsField (encode i) = i.bps := by
  rw [encode, (Laws.TableRow.of_fields _ _ i.opcode_lt).2, BitVec.toNat_ofNat, Nat.mod_eq_of_lt h]

theorem bpsField_lt (w : Word) : bpsField w < 64 := (w.extractLsb' 8 6).isLt

/-- A word whose fields are those of a command is that command's word. -/
theorem encode_eq_of_fields {w : Word} {i : Instr} (hrsv : rsvField w = 0) (hopc : opcField w = i.opcode.toNat)
    (hbps : bpsField w = i.bps) : encode i = w := by
  have hr : 0#18 = w.extractLsb' 14 18 := BitVec.eq_of_toNat_eq hrsv.symm
  have hb : BitVec.ofNat 6 i.bps = w.extractLsb' 8 6 := by rw [← hbps, bpsField, BitVec.ofNat_toNat, BitVec.setWidth_eq]
  have ho : i.opcode = w.extractLsb' 0 8 := BitVec.eq_of_toNat_eq hopc.symm
  rw [encode, hr, hb, ho, append_fields]

/-! ### The decoder -/

/-- The opcode map read both ways (30_encoding.md R94). -/
theorem ofOpcode_eq_some_iff {op n : Nat} {i : Instr} :
    ofOpcode op n = some i ↔ op = i.opcode.toNat ∧ n = i.bps := by
  constructor
  · unfold ofOpcode
    split <;> rintro ⟨⟩ <;> exact ⟨rfl, rfl⟩
  · rintro ⟨rfl, rfl⟩
    cases i <;> rfl

/-- The opcodes from 9 on are reserved (30_encoding.md R95). -/
theorem ofOpcode_eq_none {op : Nat} (n : Nat) (h : 9 ≤ op) : ofOpcode op n = none := by
  refine Option.eq_none_iff_forall_ne_some.2 fun i hi => ?_
  have := (ofOpcode_eq_some_iff.1 hi).1
  have := i.opcode_lt
  omega

/-- The decoder's answer to a reserved bit, whatever the opcode is (30_encoding.md R93). -/
theorem decode_of_rsvField_ne {w : Word} (h : rsvField w ≠ 0) : decode w = .error .reservedBits := if_neg h

/-- With RSV 0 the opcode map decides (30_encoding.md R94, R95). -/
theorem decode_of_rsvField_eq {w : Word} (h : rsvField w = 0) :
    decode w = (ofOpcode (opcField w) (bpsField w)).elim (.error .reservedOpcode) .ok := by
  rw [decode, if_pos h]
  cases ofOpcode (opcField w) (bpsField w) <;> rfl

/-- The decoder's answer to a reserved opcode (30_encoding.md R95). -/
theorem decode_of_opcField_ge {w : Word} (hrsv : rsvField w = 0) (h : 9 ≤ opcField w) :
    decode w = .error .reservedOpcode := by
  rw [decode_of_rsvField_eq hrsv, ofOpcode_eq_none _ h, Option.elim_none]

/-- A word decodes to a command exactly when its three fields are that command's (30_encoding.md R90 to R95). -/
theorem decode_eq_ok_iff_fields {w : Word} {i : Instr} :
    decode w = .ok i ↔ rsvField w = 0 ∧ opcField w = i.opcode.toNat ∧ bpsField w = i.bps := by
  rw [← ofOpcode_eq_some_iff]
  by_cases hrsv : rsvField w = 0
  · rw [decode_of_rsvField_eq hrsv]
    cases ofOpcode (opcField w) (bpsField w) <;> simp [hrsv]
  · simp [decode_of_rsvField_ne hrsv, hrsv]

/-! ### Decoder and encoder are inverse to each other -/

/-- The words that decode to a command are its own word and no other, and the command is then well formed
(30_encoding.md R90, R94, R98). -/
theorem decode_eq_ok_iff {w : Word} {i : Instr} : decode w = .ok i ↔ i.WellFormed ∧ encode i = w := by
  rw [decode_eq_ok_iff_fields]
  constructor
  · rintro ⟨hrsv, hopc, hbps⟩
    exact ⟨hbps.symm.trans_lt (bpsField_lt w), encode_eq_of_fields hrsv hopc hbps⟩
  · rintro ⟨hwf, rfl⟩
    exact ⟨rsvField_encode i, opcField_encode i, bpsField_encode hwf⟩

/-- Settles O1: the fields of the encoded word are the command's. -/
theorem decodeOfEncode : Obligations.DecodeOfEncode := fun _ h => decode_eq_ok_iff.2 ⟨h, rfl⟩

/-- Settles O2: a word that decodes to a command has the command's fields, and a word is its fields. -/
theorem encodeOfDecode : Obligations.EncodeOfDecode := fun _ _ h => decode_eq_ok_iff.1 h

/-- Settles O3: six of the words are the encodings of their commands, 0x4005 has bit 14 set, 0x9 has opcode 9. -/
theorem exampleWordsDecode : Obligations.ExampleWordsDecode := by
  refine ⟨decodeOfEncode (.mod 2) ?_, decodeOfEncode (.demod 4) ?_, decodeOfEncode (.pack 3) ?_,
    decodeOfEncode (.ser 0) ?_, decodeOfEncode (.deser 0) ?_, decodeOfEncode (.nop 0) ?_,
    decode_of_rsvField_ne ?_, decode_of_opcField_ge ?_ ?_⟩
  all_goals decide

end Sys2Proof
end

section
/-! PROOFS. The engine's step on the pending word (30_encoding.md R93, R95; 60_exceptions.md R200, R202, R208): a word that is no
command fails, and a word the host has written to CMD is run. -/

namespace Sys2Proof.Machine

/-! ### The heads of the script at which the engine runs a pending word (logs 1 and 2) -/

theorem step_nil_of_busy {s : State} (hb : s.status.busy = true) (hs : s.script = []) : step s = engineStep s := by
  simp [step, advance, hs, engineTurn, hb]

theorem step_engine_of_busy {s : State} {rest : List Event} (hb : s.status.busy = true)
    (hs : s.script = .engine :: rest) : step s = engineStep { s with script := rest } := by
  simp [step, advance, hs, engineTurn, hb]

theorem step_wait_of_busy {s : State} {rest : List Event} (hb : s.status.busy = true)
    (hs : s.script = .wait :: rest) : step s = engineStep s := by
  simp [step, advance, hs, hb]

/-! ### What the engine's step does -/

/-- A pending word that is a command is run (60_exceptions.md R202). -/
theorem engineStep_of_ok {s : State} {i : Instr} (h : decode s.cmd = .ok i) : engineStep s = exec i s := by
  simp [engineStep, h]

/-- A pending word that is no command fails, whatever keeps it from being one (60_exceptions.md R208). -/
theorem engineStep_of_error {s : State} {e : DecodeError} (h : decode s.cmd = .error e) :
    engineStep s = .next (s.fail .unsupportedMode) := by
  simp [engineStep, h, State.complete]

/-- A reserved bit or a reserved opcode in the pending word (30_encoding.md R93, R95; 60_exceptions.md R208). -/
theorem engineStep_of_reserved {s : State}
    (h : s.cmd.extractLsb' 14 18 ≠ 0#18 ∨ 9 ≤ (s.cmd.extractLsb' 0 8).toNat) :
    engineStep s = .next (s.fail .unsupportedMode) := by
  by_cases hrsv : rsvField s.cmd = 0
  · have hopc : 9 ≤ opcField s.cmd := h.resolve_left (not_not.2 (BitVec.eq_of_toNat_eq (y := 0#18) hrsv))
    exact engineStep_of_error (decode_of_opcField_ge hrsv hopc)
  · exact engineStep_of_error (decode_of_rsvField_ne hrsv)

/-- Settles O4: at each head the step is the engine's, which does not look at the script. -/
theorem unsupportedWordFails : Obligations.UnsupportedWordFails := by
  rintro s t hb hbad rfl
  exact ⟨fun hs => (step_nil_of_busy hb hs).trans (engineStep_of_reserved hbad),
    fun rest hs => (step_engine_of_busy hb hs).trans (engineStep_of_reserved hbad),
    fun rest hs => (step_wait_of_busy hb hs).trans (engineStep_of_reserved hbad)⟩

/-- The host's line `cmd i` while BUSY is 0: the word is accepted with OKAY (30_encoding.md R100, 60_exceptions.md R200). -/
theorem step_cmd_of_idle {s : State} {w : Word} {rest : List Event} (hb : s.status.busy = false)
    (hs : s.script = wr32 Reg.cmd.addr w :: rest) :
    step s = .next { s.accept w with reply := some { resp := .okay, data := 0#32 }, script := rest } := by
  have hwrite := transact_write_addr { s with script := rest } .cmd w (.inr hb)
  rw [wr32] at hs
  simp [step, advance, hs, State.hostStep, hwrite, State.writeReg, State.accept]

/-- Settles O11: the first step accepts the word; then BUSY is 1, and the wait's turn runs what the word decodes to. -/
theorem cmdThenWaitRunsCommand : Obligations.CmdThenWaitRunsCommand := by
  intro s i rest hb hwf hs
  refine ⟨_, step_cmd_of_idle (w := encode i) (rest := .wait :: rest) hb hs, ?_, rfl⟩
  exact (step_wait_of_busy rfl rfl).trans (engineStep_of_ok (decodeOfEncode i hwf))

end Sys2Proof.Machine
end

section
/-! PROOFS. PACK and UNPACK (40_bitpacker.md R111 to R116): both move one bit stream (00_scope.md R9), between the bytes of
BYTE_MEM and the `n`-bit values of VAL_MEM, and pad it with zero bits; so each after the other gives the stream back, padded. -/

namespace Sys2Proof.Machine

/-! ### Counts (00_scope.md R10) -/

theorem ceilDiv_mul_self (q b : Nat) (hb : 0 < b) : ceilDiv (q * b) b = q := by
  rw [ceilDiv, Nat.add_sub_assoc hb, Nat.mul_comm, Nat.mul_add_div hb, Nat.div_eq_of_lt (by omega), Nat.add_zero]

/-- The counts as the statements write them (R112, R114). -/
theorem packCount_eq (n len : Nat) : packCount n len = (8 * len + n - 1) / n := rfl
theorem unpackCount_eq (n c : Nat) : unpackCount n c = (c * n + 7) / 8 := rfl

theorem packCount_bounds (n len : Nat) (hn : 0 < n) :
    8 * len ≤ packCount n len * n ∧ packCount n len * n < 8 * len + n := ceilDiv_bounds _ _ hn

theorem unpackCount_bounds (n c : Nat) : c * n ≤ 8 * unpackCount n c ∧ 8 * unpackCount n c < c * n + 8 := by
  have := ceilDiv_bounds (c * n) 8 (by decide)
  rwa [Nat.mul_comm _ 8] at this

/-- PACK needs no padding exactly when the values end where the bytes do. -/
theorem packCount_mul_eq_iff (n len : Nat) (hn : 0 < n) : packCount n len * n = 8 * len ↔ 8 * len % n = 0 := by
  constructor
  · intro h
    rw [← h, Nat.mul_mod_left]
  · intro h
    obtain ⟨q, hq⟩ := Nat.dvd_of_mod_eq_zero h
    rw [packCount, hq, Nat.mul_comm n q, ceilDiv_mul_self q n hn]

/-- A count within a capacity fits its 32-bit register (43_serializer.md R182). -/
theorem toNat_ofNat_count {c cap : Nat} (h : c ≤ cap) (hcap : cap ≤ 262144) : (BitVec.ofNat 32 c).toNat = c := by
  rw [BitVec.toNat_ofNat]
  omega

/-! ### The stream in each buffer (00_scope.md R9) -/

/-- Stream bit `j` as BYTE_MEM holds it: 8 bits to a byte, the most significant first. -/
def State.byteBit (s : State) (j : Nat) : Bool := (s.byteElem (j / 8)).getLsbD (7 - j % 8)

/-- Stream bit `j` as VAL_MEM holds it: the low `n` bits of each word, the most significant first. -/
def State.valBit (s : State) (n j : Nat) : Bool := (s.valElem (j / n)).getLsbD (n - 1 - j % n)

@[simp] theorem succeed_valElem (s : State) (k : Nat) : s.succeed.valElem k = s.valElem k := rfl
@[simp] theorem succeed_byteBit (s : State) (j : Nat) : s.succeed.byteBit j = s.byteBit j := rfl

theorem getLsbD_byteElem (s : State) (i b : Nat) (hb : b < 8) :
    (s.byteElem i).getLsbD b = s.byteBit (8 * i + (7 - b)) := by
  rw [State.byteBit, show (8 * i + (7 - b)) / 8 = i by omega, show 7 - (8 * i + (7 - b)) % 8 = b by omega]

/-- Bit `b` of value `k` is stream bit `k·n + (n-1-b)`, one of the `n` bits that make word `k` (R112). -/
theorem valIndex_div (k : Nat) {n b : Nat} (hb : b < n) : (k * n + (n - 1 - b)) / n = k := by
  rw [Nat.mul_comm, Nat.mul_add_div (by omega), Nat.div_eq_of_lt (by omega), Nat.add_zero]

theorem valIndex_lt_iff {n k b c : Nat} (hb : b < n) : k * n + (n - 1 - b) < c * n ↔ k < c := by
  rw [← Nat.div_lt_iff_lt_mul (by omega), valIndex_div k hb]

theorem getLsbD_valElem (s : State) {n b : Nat} (k : Nat) (hb : b < n) :
    (s.valElem k).getLsbD b = s.valBit n (k * n + (n - 1 - b)) := by
  rw [State.valBit, valIndex_div k hb, Nat.mul_add_mod', Nat.mod_eq_of_lt (by omega),
    show n - 1 - (n - 1 - b) = b by omega]

/-! ### What the bodies write -/

/-- PACK writes the stream into the low bits of the words, 0 beyond its end and above bit `n-1` (R111, R112). -/
theorem getLsbD_packBody_valElem (s : State) {n len k : Nat} (i : Nat) (hn : n ≤ 32) (hk : k < packCount n len) :
    ((packBody n len s).valElem k).getLsbD i = (decide (i < n) &&
      (decide (k * n + (n - 1 - i) < 8 * len) && s.byteBit (k * n + (n - 1 - i)))) := by
  rw [packBody_valElem n len k s hk, getLsbD_packValue n _ k i hn, streamBit_map, State.byteBit]

/-- UNPACK writes the stream into the bytes, 0 beyond its end (R113, R114). -/
theorem byteBit_unpackBody (s : State) {n c j : Nat} (hpos : 0 < n) (hj : j < 8 * unpackCount n c) :
    (unpackBody n c s).byteBit j = (decide (j < c * n) && s.valBit n j) := by
  have hj8 : j / 8 < unpackCount n c := by omega
  rw [State.byteBit, unpackBody_byteElem n c _ s hj8, getLsbD_unpackByte _ _ _ _ (Nat.mod_lt j (by decide)),
    Nat.div_add_mod, unpackBit_map _ _ _ _ hpos, State.valBit]

/-! ### When the commands succeed -/

/-- A completion with ERR 0 is one of a command that passed its checks (60_exceptions.md R206, R207). -/
theorem complete_succeeds_iff (s t : State) (r : Except ErrCode State) :
    s.complete r = t ∧ t.status.err = false ↔ ∃ u, r = .ok u ∧ t = u.succeed := by
  constructor
  · rintro ⟨rfl, herr⟩
    rcases complete_cases s r with ⟨e, -, hc⟩ | ⟨u, hr, hc⟩
    · simp [hc] at herr
    · exact ⟨u, hr, hc⟩
  · rintro ⟨u, rfl, rfl⟩
    exact ⟨rfl, rfl⟩

theorem exec_pack_succeeds_iff (n : Nat) (s t : State) :
    exec (.pack n) s = .next t ∧ t.status.err = false ↔
      1 ≤ n ∧ n ≤ s.params.maxBps ∧ s.byteLen.toNat ≤ s.params.byteCap ∧
        packCount n s.byteLen.toNat ≤ s.params.valCap ∧ t = (packBody n s.byteLen.toNat s).succeed := by
  have hexec : exec (.pack n) s = .next (s.complete (packCommand n s)) := rfl
  rw [hexec, Host.Outcome.next.injEq, complete_succeeds_iff]
  simp only [packCommand_ok, badBps_eq_false, and_assoc, exists_and_left, exists_eq_left]

theorem exec_unpack_succeeds_iff (n : Nat) (s t : State) :
    exec (.unpack n) s = .next t ∧ t.status.err = false ↔
      1 ≤ n ∧ n ≤ s.params.maxBps ∧ s.valCnt.toNat ≤ s.params.valCap ∧
        unpackCount n s.valCnt.toNat ≤ s.params.byteCap ∧ t = (unpackBody n s.valCnt.toNat s).succeed := by
  have hexec : exec (.unpack n) s = .next (s.complete (unpackCommand n s)) := rfl
  rw [hexec, Host.Outcome.next.injEq, complete_succeeds_iff]
  simp only [unpackCommand_ok, badBps_eq_false, and_assoc, exists_and_left, exists_eq_left]

/-! ### Each command alone -/

/-- What a successful PACK leaves (R111, R112): the count, and every bit of the values. -/
theorem exec_pack_stream {n : Nat} {s u : State} (hs : s.params.Legal)
    (hu : exec (.pack n) s = .next u ∧ u.status.err = false) :
    0 < n ∧ n ≤ 16 ∧ u.params = s.params ∧ u.valCnt.toNat = packCount n s.byteLen.toNat ∧
      ∀ k i, k < u.valCnt.toNat → (u.valElem k).getLsbD i = (decide (i < n) &&
        (decide (k * n + (n - 1 - i) < 8 * s.byteLen.toNat) && s.byteBit (k * n + (n - 1 - i)))) := by
  obtain ⟨_, hbps, _, _, _, hval, _⟩ := hs
  obtain ⟨hpos, hn, -, hcnt, rfl⟩ := (exec_pack_succeeds_iff n s u).1 hu
  have hcount : (packBody n s.byteLen.toNat s).succeed.valCnt.toNat = packCount n s.byteLen.toNat :=
    toNat_ofNat_count hcnt hval
  refine ⟨hpos, hn.trans hbps, rfl, hcount, fun k i hk => ?_⟩
  rw [hcount] at hk
  rw [succeed_valElem, getLsbD_packBody_valElem s i (by omega) hk]

/-- What a successful UNPACK leaves (R113, R114): the count, and every bit of the bytes. -/
theorem exec_unpack_stream {n : Nat} {s u : State} (hs : s.params.Legal)
    (hu : exec (.unpack n) s = .next u ∧ u.status.err = false) :
    0 < n ∧ n ≤ 16 ∧ u.params = s.params ∧ u.byteLen.toNat = unpackCount n s.valCnt.toNat ∧
      ∀ j, j < 8 * u.byteLen.toNat → u.byteBit j = (decide (j < s.valCnt.toNat * n) && s.valBit n j) := by
  obtain ⟨_, hbps, _, hbyte, _⟩ := hs
  obtain ⟨hpos, hn, -, hlen, rfl⟩ := (exec_unpack_succeeds_iff n s u).1 hu
  have hcount : (unpackBody n s.valCnt.toNat s).succeed.byteLen.toNat = unpackCount n s.valCnt.toNat :=
    toNat_ofNat_count hlen (hbyte.trans (by decide))
  refine ⟨hpos, hn.trans hbps, rfl, hcount, fun j hj => ?_⟩
  rw [hcount] at hj
  rw [succeed_byteBit, byteBit_unpackBody s hpos hj]

/-- Settles O22: under its premises PACK passes its checks, and its values hold the stream. -/
theorem packPacksTheStream : Obligations.PackPacksTheStream := by
  intro n s hs hpos hn hbyte hcnt
  have hu := (exec_pack_succeeds_iff n s _).2 ⟨hpos, hn, hbyte, hcnt, rfl⟩
  obtain ⟨-, -, -, hcount, hbits⟩ := exec_pack_stream hs hu
  refine ⟨_, hu.1, rfl, hcount, fun k i hk => ?_, fun a ha => ?_⟩
  · rw [hbits k i hk, Bool.and_assoc, State.byteBit]
  · rw [hcount] at ha
    exact packBody_readByte_outside n _ a s ha

/-- Settles O23: under its premises UNPACK passes its checks, and its bytes hold the stream. -/
theorem unpackExpandsTheWords : Obligations.UnpackExpandsTheWords := by
  intro n s hs hpos hn hval hlen
  have hu := (exec_unpack_succeeds_iff n s _).2 ⟨hpos, hn, hval, hlen, rfl⟩
  obtain ⟨-, -, -, hcount, hbits⟩ := exec_unpack_stream hs hu
  refine ⟨_, hu.1, rfl, hcount, hbits, fun a ha => ?_⟩
  rw [hcount] at ha
  exact unpackBody_readByte_outside n _ a s ha

/-! ### One after the other -/

/-- The values of a successful PACK, end to end, are the bytes' stream, padded with zero bits (R112). -/
theorem exec_pack_valBit {n : Nat} {s u : State} (hs : s.params.Legal)
    (hu : exec (.pack n) s = .next u ∧ u.status.err = false) {j : Nat} (hj : j < u.valCnt.toNat * n) :
    u.valBit n j = (decide (j < 8 * s.byteLen.toNat) && s.byteBit j) := by
  obtain ⟨hpos, -, -, -, hbits⟩ := exec_pack_stream hs hu
  have hmod := Nat.mod_lt j hpos
  have hstream : j / n * n + (n - 1 - (n - 1 - j % n)) = j := by
    have := Nat.div_add_mod' j n
    omega
  rw [State.valBit, hbits _ _ ((Nat.div_lt_iff_lt_mul hpos).2 hj), hstream,
    decide_eq_true (show n - 1 - j % n < n by omega), Bool.true_and]

/-- PACK then UNPACK gives the bytes' stream back, padded with zero bits (R115). -/
theorem exec_pack_unpack_byteBit {n : Nat} {s u t : State} (hs : s.params.Legal)
    (hu : exec (.pack n) s = .next u ∧ u.status.err = false) (ht : exec (.unpack n) u = .next t ∧ t.status.err = false)
    {j : Nat} (hj : j < 8 * t.byteLen.toNat) :
    t.byteBit j = (decide (j < 8 * s.byteLen.toNat) && s.byteBit j) := by
  obtain ⟨hpos, -, hparams, hcount, -⟩ := exec_pack_stream hs hu
  obtain ⟨-, -, -, -, hbits⟩ := exec_unpack_stream (hparams ▸ hs) ht
  obtain ⟨hle, -⟩ := packCount_bounds n s.byteLen.toNat hpos
  rw [← hcount] at hle
  rw [hbits j hj]
  by_cases hin : j < u.valCnt.toNat * n
  · rw [exec_pack_valBit hs hu hin, decide_eq_true hin, Bool.true_and]
  · rw [decide_eq_false hin, decide_eq_false (show ¬j < 8 * s.byteLen.toNat by omega), Bool.false_and, Bool.false_and]

/-- UNPACK then PACK gives the low `n` bits of the words back, followed by zero values (R116). -/
theorem exec_unpack_pack_valElem {n : Nat} {s u t : State} (hs : s.params.Legal)
    (hu : exec (.unpack n) s = .next u ∧ u.status.err = false) (ht : exec (.pack n) u = .next t ∧ t.status.err = false)
    {k : Nat} (i : Nat) (hk : k < t.valCnt.toNat) :
    (t.valElem k).getLsbD i = (decide (i < n) && (decide (k < s.valCnt.toNat) && (s.valElem k).getLsbD i)) := by
  obtain ⟨-, -, hparams, hcount, hbytes⟩ := exec_unpack_stream hs hu
  obtain ⟨-, -, -, -, hvals⟩ := exec_pack_stream (hparams ▸ hs) ht
  obtain ⟨hle, -⟩ := unpackCount_bounds n s.valCnt.toNat
  rw [← hcount] at hle
  rw [hvals k i hk]
  by_cases hi : i < n
  · have hlt := valIndex_lt_iff (k := k) (c := s.valCnt.toNat) hi
    by_cases hin : k * n + (n - 1 - i) < 8 * u.byteLen.toNat
    · rw [hbytes _ hin, decide_eq_true hin, Bool.true_and, decide_eq_decide.2 hlt, getLsbD_valElem s k hi]
    · rw [decide_eq_false hin, decide_eq_false (show ¬k < s.valCnt.toNat by omega), Bool.false_and, Bool.false_and]
  · rw [decide_eq_false hi, Bool.false_and, Bool.false_and]

/-- Settles O32: the bytes are the bits of the stream, and the padding is below 16 bits, because `n` is at most 16. -/
theorem packUnpackContract : Obligations.PackUnpackContract := by
  intro n s u t hs hu hue ht hte
  obtain ⟨hpos, hn, hparams, hcount, -⟩ := exec_pack_stream hs ⟨hu, hue⟩
  obtain ⟨-, -, -, hlen, -⟩ := exec_unpack_stream (hparams ▸ hs) ⟨ht, hte⟩
  obtain ⟨hle, hlt⟩ := packCount_bounds n s.byteLen.toNat hpos
  have hexact := packCount_mul_eq_iff n s.byteLen.toNat hpos
  rw [hcount, unpackCount_eq] at hlen
  have hbits (j : Nat) := exec_pack_unpack_byteBit hs ⟨hu, hue⟩ ⟨ht, hte⟩ (j := j)
  refine ⟨hlen, fun i hi => BitVec.eq_of_getLsbD_eq fun b hb => ?_,
    fun i hi hi' => BitVec.eq_of_getLsbD_eq fun b hb => ?_, ?_, fun hmod => ?_⟩
  · rw [getLsbD_byteElem t i b hb, getLsbD_byteElem s i b hb, hbits _ (by omega), decide_eq_true (by omega),
      Bool.true_and]
  · rw [getLsbD_byteElem t i b hb, hbits _ (by omega), decide_eq_false (by omega), Bool.false_and,
      BitVec.getLsbD_zero]
  · rw [← BitVec.toNat_inj, ← hexact]
    omega
  · rw [← packCount_eq]
    have hpad := hexact.not.2 hmod
    split <;> omega

/-- Settles O33: the words are the low `n` bits of the old ones; with `8 ∣ c·n` the bytes hold exactly `c` values. -/
theorem unpackPackLaw : Obligations.UnpackPackLaw := by
  intro n s u t hs hu hue ht hte
  obtain ⟨hpos, -, hparams, hlen, -⟩ := exec_unpack_stream hs ⟨hu, hue⟩
  obtain ⟨-, -, -, hcount, -⟩ := exec_pack_stream (hparams ▸ hs) ⟨ht, hte⟩
  rw [hlen] at hcount
  obtain ⟨hle, hlt⟩ := unpackCount_bounds n s.valCnt.toNat
  have hbits (k i : Nat) := exec_unpack_pack_valElem hs ⟨hu, hue⟩ ⟨ht, hte⟩ (k := k) i
  have hgrow : s.valCnt.toNat ≤ t.valCnt.toNat := by
    have := (packCount_bounds n (unpackCount n s.valCnt.toNat) hpos).1
    rw [← hcount] at this
    exact Nat.le_of_mul_le_mul_right (hle.trans this) hpos
  refine ⟨hcount, fun k hk => Nat.eq_of_testBit_eq fun i => ?_, fun k hk hk' => BitVec.eq_of_getLsbD_eq fun i _ => ?_,
    fun hmod => BitVec.eq_of_toNat_eq ?_⟩
  · rw [Nat.testBit_mod_two_pow, BitVec.testBit_toNat, BitVec.testBit_toNat, hbits k i (hk.trans_le hgrow),
      decide_eq_true hk, Bool.true_and]
  · rw [hbits k i hk', decide_eq_false (Nat.not_lt.2 hk), Bool.false_and, Bool.and_false, BitVec.getLsbD_zero]
  · rw [hcount, packCount, show 8 * unpackCount n s.valCnt.toNat = s.valCnt.toNat * n by omega, ceilDiv_mul_self _ n hpos]

end Sys2Proof.Machine
end

section
/-! PROOFS. Rounding an index argument to the nearest integer, and clamping it (41_constellation.md R135, R140, R151). -/

namespace Sys2Proof.F64

/-- Half up on magnitudes is to nearest; at a tie the other integer, one below, is no larger in magnitude. -/
theorem halfUp_nearest (m : Nat) {H : Nat} (hH : 0 < H) (q : Int) :
    |(m : Int) - ((m + H) / (2 * H) : Nat) * (2 * H : Nat)| ≤ |(m : Int) - q * (2 * H : Nat)| ∧
      (|(m : Int) - ((m + H) / (2 * H) : Nat) * (2 * H : Nat)| = |(m : Int) - q * (2 * H : Nat)| →
        |q| ≤ |(((m + H) / (2 * H) : Nat) : Int)|) := by
  have hdiv := Nat.div_add_mod (m + H) (2 * H)
  have hmod := Nat.mod_lt (m + H) (show 0 < 2 * H by omega)
  generalize (m + H) % (2 * H) = rest at *
  generalize (m + H) / (2 * H) = v at *
  generalize hP : 2 * H = P at *
  zify at hdiv hmod hP
  have hlo : -(H : Int) ≤ m - v * P := by linarith
  have hhi : (m : Int) - v * P < H := by linarith
  have hself := abs_cases ((m : Int) - v * P)
  have hother := abs_cases ((m : Int) - q * P)
  rw [Nat.abs_cast]
  rcases lt_trichotomy q (v : Int) with hlt | rfl | hgt
  · have hgap : q * P ≤ (v : Int) * P - P := by nlinarith
    refine ⟨by omega, fun htie => abs_le.2 ⟨not_lt.1 fun hneg => ?_, hlt.le⟩⟩
    have hfar : q * P ≤ -((v : Int) * P) - P := by nlinarith
    have := mul_nonneg (Int.natCast_nonneg v) (Int.natCast_nonneg P)
    omega
  · exact ⟨le_rfl, fun _ => Nat.abs_cast v |>.le⟩
  · have hgap : (v : Int) * P + P ≤ q * P := by nlinarith
    exact ⟨by omega, fun htie => by omega⟩

/-- The same with a sign, in units of a power of 2: reversing the sign of all three integers changes no distance. -/
theorem signed_halfUp_nearest (neg : Bool) (m k : Nat) (q : Int) :
    |signed neg m - signed neg ((m + 2 ^ k) / 2 ^ (k + 1)) * 2 ^ (k + 1)| ≤ |signed neg m - q * 2 ^ (k + 1)| ∧
      (|signed neg m - signed neg ((m + 2 ^ k) / 2 ^ (k + 1)) * 2 ^ (k + 1)| = |signed neg m - q * 2 ^ (k + 1)| →
        |q| ≤ |signed neg ((m + 2 ^ k) / 2 ^ (k + 1))|) := by
  have hunit : (2 : Int) ^ (k + 1) = ((2 * 2 ^ k : Nat) : Int) := by rw [← pow_succ', Nat.cast_pow, Nat.cast_ofNat]
  have hneg (e v P : Int) : |-e - v * P| = |e - -v * P| := by rw [← abs_neg (e - -v * P)]; congr 1; ring
  rw [hunit, pow_succ']
  cases neg
  · exact halfUp_nearest m (Nat.two_pow_pos k) q
  · have h := halfUp_nearest m (Nat.two_pow_pos k) (-q)
    rw [← hneg, abs_neg, ← neg_neg ((((m + 2 ^ k) / (2 * 2 ^ k) : Nat)) : Int), ← hneg, abs_neg (-_)] at h
    exact h

/-- Settles O39: `RoundHalfAway` keeps the sign and rounds the magnitude half up. -/
theorem roundHalfAwayIsNearest : Obligations.RoundHalfAwayIsNearest := by
  intro t q _
  have hround : roundHalfAway t = signed (sign t) ((units t + 2 ^ 1073) / 2 ^ 1074) := rfl
  rw [toInt_eq_signed, hround, show 1074 = 1073 + 1 from rfl]
  exact signed_halfUp_nearest (sign t) (units t) 1073 q

end Sys2Proof.F64

namespace Sys2Proof.Machine

/-- The nearest multiple of the unit, clamped, is the nearest of the multiples in the range: where it is outside, the exact
value is beyond that end of the range too. -/
theorem abs_sub_clampIndex_le {P e v : Int} (hP : 0 < P) (hv : ∀ q, |e - v * P| ≤ |e - q * P|) {sd : Nat} {p : Int}
    (h0 : 0 ≤ p) (hp : p < sd) : |e - clampIndex sd v * P| ≤ |e - p * P| := by
  by_cases hin : 0 ≤ v ∧ v < sd
  · rw [clampIndex_of_mem sd v hin.1 hin.2]
    exact hv p
  · have hother := abs_cases (e - p * P)
    have hself := abs_cases (e - v * P)
    have hnear := hv (clampIndex sd v)
    have hend := abs_cases (e - clampIndex sd v * P)
    rcases not_and_or.1 hin with hlow | hhigh
    · have hclamp : clampIndex sd v = 0 := by rw [clampIndex]; omega
      have hvP : v * P ≤ 0 * P - P := by nlinarith
      have hpP : 0 * P ≤ p * P := by nlinarith
      rw [hclamp] at hnear hend ⊢
      omega
    · have hclamp : clampIndex sd v = sd - 1 := by rw [clampIndex]; omega
      have hvP : ((sd : Int) - 1) * P + P ≤ v * P := by nlinarith
      have hpP : p * P ≤ ((sd : Int) - 1) * P := by nlinarith
      rw [hclamp] at hnear hend ⊢
      omega

/-- Settles O45: squared distance is one term per axis, and on each axis the index is nearest, clamped or not. -/
theorem roundThenClampIsNearestPoint : Obligations.RoundThenClampIsNearestPoint := by
  intro n tr ti p q htr hti
  have hr (q : Int) := (F64.roundHalfAwayIsNearest tr q htr).1
  have hi (q : Int) := (F64.roundHalfAwayIsNearest ti q hti).1
  have hP : (0 : Int) < 2 ^ 1074 := by positivity
  exact ⟨add_le_add (sq_le_sq.2 (hr p)) (sq_le_sq.2 (hi q)), fun hp hp' hq hq' =>
    add_le_add (sq_le_sq.2 (abs_sub_clampIndex_le hP hr hp hp')) (sq_le_sq.2 (abs_sub_clampIndex_le hP hi hq hq'))⟩

end Sys2Proof.Machine
end

section
/-! PROOFS. How near a rounded result is to the exact one (00_scope.md R11), in units and as rational numbers, and the
operands that need no rounding: half-integers, so the lattice coordinates (41_constellation.md R132). -/

namespace Sys2Proof.F64

/-! ### Below overflow -/

theorem two_pow_le_overflowBound {e d : Nat} (h : e ≤ 2044 + d) : 2 ^ 53 * 2 ^ e ≤ overflowBound d := by
  have hle : 2 ^ e ≤ 2 ^ (2044 + d) := Nat.pow_le_pow_right two_pos h
  have hbound : overflowBound d = (2 ^ 54 - 1) * 2 ^ (2044 + d) := by
    rw [overflowBound, Nat.mul_assoc, ← Nat.pow_add]
  rw [hbound]
  generalize 2 ^ (2044 + d) = D at hle ⊢
  omega

theorem mul_two_pow_lt_overflowBound {c e d : Nat} (hc : c < 2 ^ 53) (h : e ≤ 2044 + d) : c * 2 ^ e < overflowBound d :=
  (Nat.mul_lt_mul_of_pos_right hc (Nat.two_pow_pos e)).trans_le (two_pow_le_overflowBound h)

/-! ### The value of a rounded magnitude -/

section
variable {neg : Bool} {m d : Nat}

/-- A finite rounding is its significand at its place, with its sign. -/
theorem toInt_round (h : isFinite (round neg m d) = true) :
    toInt (round neg m d) * (2 ^ d : Nat) = signed neg (roundSig m d * 2 ^ roundPlace m d) := by
  have hlt := (pattern_lt_infinity_iff m d).2 ((isFinite_round_iff neg m d).1 h)
  have hpat : roundExp m d * 2 ^ 52 + roundSig m d < 2 ^ 63 := by omega
  have hsig : roundExp m d = 0 ∨ 2 ^ 52 ≤ roundSig m d := (Nat.eq_zero_or_pos _).imp_right (le_roundSig m d)
  rw [round_eq_of_finite h, toInt_eq_signed, sign_ofSignMag neg hpat, units_ofSignMag neg (roundSig_le m d) hsig hpat,
    signed_mul, Nat.mul_assoc, ← Nat.pow_add, roundPlace_eq]

/-- A magnitude with 53 significant bits is not changed by rounding: nothing is nearer to it than itself. -/
theorem roundSig_of_representable (h : Representable m) : roundSig m 0 * 2 ^ roundPlace m 0 = m := by
  obtain ⟨hle, -⟩ := roundSig_nearestEven m 0 h
  rw [pow_zero, mul_one, sub_self, abs_zero, abs_nonpos_iff, sub_eq_zero] at hle
  exact_mod_cast hle

/-- So its rounding is finite, if it is below overflow, and exact. -/
theorem round_mul_two_pow (neg : Bool) {c e : Nat} (hc : c < 2 ^ 53) (he : e ≤ 2044) :
    isFinite (round neg (c * 2 ^ e) 0) = true ∧ toInt (round neg (c * 2 ^ e) 0) = signed neg (c * 2 ^ e) := by
  have hfin := (isFinite_round_iff neg _ 0).2 (mul_two_pow_lt_overflowBound hc he)
  have hval := toInt_round hfin
  rw [roundSig_of_representable ⟨c, e, hc, rfl⟩, pow_zero, Nat.cast_one, mul_one] at hval
  exact ⟨hfin, hval⟩

/-- A magnitude of at most `53 + k` bits is rounded at place `k` or below. -/
theorem roundPlace_le {k : Nat} (hd : d ≤ k) (hm : m < 2 ^ (53 + k)) : roundPlace m d ≤ k := by
  have hlog : m.log2 < 53 + k := by
    rcases Nat.eq_zero_or_pos m with rfl | hpos
    · simp
    · exact (Nat.log2_lt hpos.ne').2 hm
  simp only [roundPlace]
  omega

theorem abs_signed_sub (neg : Bool) (a b : Nat) : |signed neg a - signed neg b| = |(a : Int) - b| := by
  cases neg
  · rfl
  · simp only [signed, if_true, neg_sub_neg, abs_sub_comm]

/-- A rounding at place `k` or below is off by at most half of `2^k`. -/
theorem abs_signed_roundSig_sub_le (neg : Bool) {k : Nat} (h : roundPlace m d ≤ k) :
    2 * |signed neg (roundSig m d * 2 ^ roundPlace m d) - signed neg m| ≤ 2 ^ k := by
  obtain ⟨hlo, hhi, -⟩ := roundShift_bounds m (roundPlace m d)
  have hk : (2 : Int) ^ roundPlace m d ≤ 2 ^ k := pow_le_pow_right₀ one_le_two h
  rw [← roundSig] at hlo hhi
  zify at hlo hhi
  have habs := abs_cases ((roundSig m d * 2 ^ roundPlace m d : Int) - m)
  rw [abs_signed_sub]
  push_cast
  rcases habs with ⟨he, -⟩ | ⟨he, -⟩ <;> rw [he] <;> linarith

end

/-- A result is off by at most half of `2^k` units where the exact value has at most `53 + k` bits. -/
theorem RoundsToNearestEven.error_le {d k : Nat} {e : Int} {r : F64} (h : RoundsToNearestEven d e r) (hd : d ≤ k)
    (hk : k ≤ 2044 + d) (he : e.natAbs < 2 ^ (53 + k)) :
    isFinite r = true ∧ 2 * |toInt r * (2 ^ d : Nat) - e| ≤ 2 ^ k := by
  obtain ⟨hfin, hnear⟩ := h
  have hlt : e.natAbs < overflowBound d := he.trans_le (by rw [pow_add]; exact two_pow_le_overflowBound hk)
  have hround := (isFinite_round_iff (decide (e < 0)) e.natAbs d).2 hlt
  refine ⟨hfin.2 hlt, ?_⟩
  calc 2 * |toInt r * (2 ^ d : Nat) - e|
      ≤ 2 * |toInt (round (decide (e < 0)) e.natAbs d) * (2 ^ d : Nat) - e| :=
        mul_le_mul_of_nonneg_left (hnear (hfin.2 hlt) _ hround).1 two_pos.le
    _ = 2 * |signed (decide (e < 0)) (roundSig e.natAbs d * 2 ^ roundPlace e.natAbs d) -
          signed (decide (e < 0)) e.natAbs| := by rw [toInt_round hround, signed_decide_natAbs]
    _ ≤ 2 ^ k := abs_signed_roundSig_sub_le _ (roundPlace_le hd he)

/-! ### Half-integers -/

/-- Half-integers of up to 53 bits are exact (41_constellation.md R132, R137). -/
theorem toInt_ofHalves {t : Int} (ht : |t| < 2 ^ 53) :
    isFinite (ofHalves t) = true ∧ 2 * toInt (ofHalves t) = t * 2 ^ 1074 := by
  have hbits : t.natAbs < 2 ^ 53 := by zify; exact ht
  obtain ⟨hfin, hval⟩ := round_mul_two_pow (decide (t < 0)) (e := 1073) hbits (by decide)
  have hunit : (2 : Int) ^ 1074 = 2 ^ 1073 * 2 := by rw [show 1074 = 1073 + 1 from rfl, pow_succ]
  refine ⟨hfin, ?_⟩
  rw [ofHalves, hval, ← signed_mul, signed_decide_natAbs, hunit, Nat.cast_pow, Nat.cast_ofNat,
    mul_left_comm, mul_comm 2]

/-! ### Values as rational numbers -/

/-- `Real(x)` of a finite value (00_scope.md R11). -/
def toRat (x : F64) : ℚ := toInt x / 2 ^ 1074

/-- The values the constellation computes with stay far below 2^11, where a rounding is off by at most 2^-43. -/
theorem RoundsToNearestEven.toRat_close {d : Nat} {e : Int} {r : F64} (h : RoundsToNearestEven d e r)
    (he : |(e : ℚ) / 2 ^ (1074 + d)| < 2 ^ 11) :
    isFinite r = true ∧ |toRat r - e / 2 ^ (1074 + d)| ≤ 1 / 2 ^ 43 := by
  have hD : (0 : ℚ) < 2 ^ (1074 + d) := by positivity
  have hbits : e.natAbs < 2 ^ (53 + (1032 + d)) := by
    rw [abs_div, abs_of_pos hD, div_lt_iff₀ hD, ← pow_add] at he
    zify
    rw [show 53 + (1032 + d) = 11 + (1074 + d) by omega]
    exact_mod_cast he
  obtain ⟨hfin, herr⟩ := h.error_le (by omega) (by omega) hbits
  refine ⟨hfin, ?_⟩
  have hsplit : toRat r - e / 2 ^ (1074 + d) = (toInt r * (2 ^ d : Nat) - e : Int) / 2 ^ (1074 + d) := by
    rw [toRat, pow_add]
    push_cast
    field_simp
  have herr' : 2 * |((toInt r * (2 ^ d : Nat) - e : Int) : ℚ)| ≤ 2 ^ (1032 + d) := by exact_mod_cast herr
  rw [hsplit, abs_div, abs_of_pos hD, div_le_iff₀ hD, show 1074 + d = 42 + (1032 + d) by omega, pow_add]
  generalize (2 : ℚ) ^ (1032 + d) = W at herr' ⊢
  linarith

theorem fmul_close {x y : F64} (hx : isFinite x = true) (hy : isFinite y = true) (h : |toRat x * toRat y| < 2 ^ 11) :
    isFinite (fmul x y) = true ∧ |toRat (fmul x y) - toRat x * toRat y| ≤ 1 / 2 ^ 43 := by
  have hval : ((toInt x * toInt y : Int) : ℚ) / 2 ^ (1074 + 1074) = toRat x * toRat y := by
    rw [toRat, toRat, pow_add, Int.cast_mul, mul_div_mul_comm]
  have := (fmul_roundsToNearestEven hx hy).toRat_close
  rw [hval] at this
  exact this h

theorem fadd_close {x y : F64} (hx : isFinite x = true) (hy : isFinite y = true) (h : |toRat x + toRat y| < 2 ^ 11) :
    isFinite (fadd x y) = true ∧ |toRat (fadd x y) - (toRat x + toRat y)| ≤ 1 / 2 ^ 43 := by
  have hval : ((toInt x + toInt y : Int) : ℚ) / 2 ^ (1074 + 0) = toRat x + toRat y := by
    rw [toRat, toRat, add_zero, Int.cast_add, add_div]
  have := (fadd_roundsToNearestEven hx hy).toRat_close
  rw [hval] at this
  exact this h

theorem toRat_negate (x : F64) : toRat (negate x) = -toRat x := by
  rw [toRat, toRat, toInt_negate, Int.cast_neg, neg_div]

theorem fsub_close {x y : F64} (hx : isFinite x = true) (hy : isFinite y = true) (h : |toRat x - toRat y| < 2 ^ 11) :
    isFinite (fsub x y) = true ∧ |toRat (fsub x y) - (toRat x - toRat y)| ≤ 1 / 2 ^ 43 := by
  rw [sub_eq_add_neg (toRat x), ← toRat_negate] at h ⊢
  exact fadd_close hx ((isFinite_negate y).trans hy) h

theorem toRat_ofHalves {t : Int} (ht : |t| < 2 ^ 53) : toRat (ofHalves t) = t / 2 := by
  have hval : (2 * toInt (ofHalves t) : ℚ) = t * 2 ^ 1074 := by
    have h := congrArg (Int.cast (R := ℚ)) (toInt_ofHalves ht).2
    rwa [Int.cast_mul, Int.cast_mul, Int.cast_pow, Int.cast_ofNat] at h
  rw [toRat, div_eq_div_iff (by positivity) two_ne_zero, ← hval, mul_comm]

/-- A value nearer than one half to an integer is rounded to it. -/
theorem roundHalfAway_eq {t : F64} (ht : isFinite t = true) {q : Int} (h : |toRat t - q| < 1 / 2) :
    roundHalfAway t = q := by
  have hnear : |toRat t - roundHalfAway t| ≤ |toRat t - q| := by
    have hU : (0 : ℚ) < 2 ^ 1074 := by positivity
    have hdist (v : Int) : |toRat t - v| = ((|toInt t - v * 2 ^ 1074| : Int) : ℚ) / 2 ^ 1074 := by
      rw [toRat, div_sub' hU.ne', abs_div, abs_of_pos hU, Int.cast_abs, Int.cast_sub, Int.cast_mul, Int.cast_pow,
        Int.cast_ofNat, mul_comm (v : ℚ)]
    rw [hdist, hdist]
    exact div_le_div_of_nonneg_right (by exact_mod_cast (roundHalfAwayIsNearest t q ht).1) hU.le
  have hdiff : |(roundHalfAway t : ℚ) - q| < 1 := by
    calc |(roundHalfAway t : ℚ) - q| ≤ |(roundHalfAway t : ℚ) - toRat t| + |toRat t - q| := abs_sub_le ..
      _ < 1 := by rw [abs_sub_comm]; linarith
  have hint : |roundHalfAway t - q| < 1 := by exact_mod_cast hdiff
  rwa [Int.abs_lt_one_iff, sub_eq_zero] at hint

end Sys2Proof.F64

namespace Sys2Proof.Machine

/-- Settles O41: twice the coordinate is an integer of at most 19 bits. -/
theorem latticeCoordIsExact : Obligations.LatticeCoordIsExact := by
  intro sd idx hsd hidx
  exact F64.toInt_ofHalves (by rw [abs_lt]; omega)

end Sys2Proof.Machine
end

section
/-! PROOFS. The slicer (41_constellation.md R130 to R142): the lattice of even `n` is a square, every decision is a value below
`2^n` in the word's field, and a point with a half or a constant that is not finite is reported as such. -/

namespace Sys2Proof.Machine

/-! ### The square lattice of even `n` (R130) -/

theorem side_pos (n : Nat) : 1 ≤ side n := by
  by_contra h
  have hlt := (sideIsIntegerSquareRoot n).2.1
  rw [show side n = 0 by omega] at hlt
  have := Nat.two_pow_pos n
  omega

theorem side_sq_of_even {n : Nat} (h : n % 2 = 0) : (side n : Int) * side n = 2 ^ n := by
  rw [side_of_even n h, Nat.cast_pow, Nat.cast_ofNat, ← pow_add]
  congr 1
  omega

/-- Settles O42: two indices of the square make a value below `side n * side n`, and an imaginary index beyond it does not. -/
theorem outOfLatticeIsOutsideSquare : Obligations.OutOfLatticeIsOutsideSquare := by
  intro n r i hn
  rw [Bool.eq_false_iff, Ne, outOfLattice_iff, ← side_sq_of_even hn]
  push Not
  constructor
  · rintro ⟨hr, hr', hi, hv⟩
    exact ⟨hr, hr', hi, by nlinarith⟩
  · rintro ⟨hr, hr', hi, hi'⟩
    exact ⟨hr, hr', hi, by nlinarith⟩

/-! ### The value and its field (R139, R140, R142) -/

theorem sliceValue_lt (clamp : Bool) (n : Nat) (r i : Int) (h : clamp = true → n % 2 = 0) :
    sliceValue clamp n r i < 2 ^ n := by
  zify
  cases clamp with
  | false =>
    rw [sliceValue_wrap]
    exact Int.emod_lt_of_pos _ (by positivity)
  | true =>
    obtain ⟨-, hi⟩ := clampIndex_bounds (side n) i (side_pos n)
    obtain ⟨-, hr⟩ := clampIndex_bounds (side n) r (side_pos n)
    rw [sliceValue_clamp n r i (side_pos n), ← side_sq_of_even (h rfl)]
    nlinarith

theorem decideSymbol_val_lt (clamp : Bool) (n : Nat) (tr ti : F64) (h : clamp = true → n % 2 = 0) :
    (decideSymbol clamp n tr ti).val < 2 ^ n := by
  rcases decideSymbol_cases clamp n tr ti with ⟨-, hd⟩ | ⟨-, -, hd⟩ <;> rw [hd]
  · exact Nat.two_pow_pos n
  · exact sliceValue_lt clamp n _ _ h

/-- Settles O44: the slicer's decision is one on two index arguments. -/
theorem slicedValueFitsItsField : Obligations.SlicedValueFitsItsField :=
  fun _ _ _ _ clamp n h => decideSymbol_val_lt clamp n _ _ h

/-! ### Points that are finite, and points that are not (R141) -/

theorem decideSymbol_of_finite {tr ti : F64} (clamp : Bool) (n : Nat) (hr : F64.isFinite tr = true)
    (hi : F64.isFinite ti = true) : decideSymbol clamp n tr ti =
      { val := sliceValue clamp n (F64.roundHalfAway tr) (F64.roundHalfAway ti)
        oor := outOfLattice n (F64.roundHalfAway tr) (F64.roundHalfAway ti)
        nf := false } := by
  obtain ⟨-, -, hd⟩ := (decideSymbol_cases clamp n tr ti).resolve_left (by simp [hr, hi])
  exact hd

theorem decideSymbol_of_not_finite {tr ti : F64} (clamp : Bool) (n : Nat)
    (h : F64.isFinite tr = false ∨ F64.isFinite ti = false) :
    decideSymbol clamp n tr ti = { val := 0, oor := false, nf := true } := by
  obtain ⟨-, hd⟩ := (decideSymbol_cases clamp n tr ti).resolve_right (by rintro ⟨hr, hi, -⟩; simp [hr, hi] at h)
  exact hd

theorem decideSymbol_word_of_not_finite {tr ti : F64} (clamp : Bool) (n : Nat)
    (h : F64.isFinite tr = false ∨ F64.isFinite ti = false) : (decideSymbol clamp n tr ti).word = 0x80000000#32 := by
  rw [decideSymbol_of_not_finite clamp n h]
  rfl

theorem indexArg_not_finite {x : F64} (sd : Nat) (h : F64.isFinite x = false) :
    F64.isFinite (indexArg sd x) = false :=
  F64.fsub_not_finite _ _ (.inl (F64.fadd_not_finite _ _ (.inl h)))

/-- Settles O43: each of the four goes into a product of the real coordinate, so its index argument is not finite. -/
theorem nonFiniteInputsAreReported : Obligations.NonFiniteInputsAreReported := by
  intro c s x y clamp n h
  have hprod : F64.isFinite (F64.fmul x c) = false ∨ F64.isFinite (F64.fmul y s) = false := by
    rcases h with h | h | h | h
    · exact .inl (F64.fmul_not_finite _ _ (.inr h))
    · exact .inr (F64.fmul_not_finite _ _ (.inr h))
    · exact .inl (F64.fmul_not_finite _ _ (.inl h))
    · exact .inr (F64.fmul_not_finite _ _ (.inl h))
  exact decideSymbol_word_of_not_finite clamp n (.inl (indexArg_not_finite _ (F64.fadd_not_finite _ _ hprod)))

/-! ### NaNs on the mapper's output (R143) -/

/-- Refutes O46: with C = S = 1.7e308, `n` = 4 and `v` = 0 both products of the real part overflow to infinities of one sign. -/
theorem not_finiteConstantsNeverMakeNaN : ¬ Obligations.FiniteConstantsNeverMakeNaN := by
  intro h
  have hreal := (h 0x7FEE42D130773B76#64 0x7FEE42D130773B76#64 4 0 (by decide) (by decide) (by decide) (by decide)
    (by decide)).1
  have hnan : F64.isNaN (mapPoint 0x7FEE42D130773B76#64 0x7FEE42D130773B76#64 (side 4) 0).1 = true := by
    decide +kernel
  exact Bool.false_ne_true (hreal.symm.trans hnan)

end Sys2Proof.Machine
end

section
/-! PROOFS. The noiseless round trip (41_constellation.md R150). Every operation of MAP and SLICE rounds by at most 2^-43, eleven
of them lie between a lattice index and its index argument, and the constants are a rotation up to 2^-50; so the argument
is within one half of the index, and is rounded back to it. -/

namespace Sys2Proof.F64

/-! ### Operations on approximate values -/

/-- `x` is finite and stands for a number `v` of magnitude at most `B`, up to `k` rounding errors of 2^-43. -/
structure Approx (x : F64) (v : ℚ) (k B : Nat) : Prop where
  finite : isFinite x = true
  close : |toRat x - v| ≤ k / 2 ^ 43
  bound : |v| ≤ B

namespace Approx
variable {x y : F64} {v w : ℚ} {k l A B : Nat}

theorem abs_toRat_le (hx : Approx x v k A) : |toRat x| ≤ A + k := by
  have hk : (k : ℚ) / 2 ^ 43 ≤ k := div_le_self k.cast_nonneg (by norm_num)
  calc |toRat x| ≤ |toRat x - v| + |v| := by simpa using abs_add_le (toRat x - v) v
    _ ≤ A + k := by linarith [hx.close, hx.bound]

theorem negate (hx : Approx x v k A) : Approx (negate x) (-v) k A where
  finite := (isFinite_negate x).trans hx.finite
  close := by rw [toRat_negate, neg_sub_neg, abs_sub_comm]; exact hx.close
  bound := by rw [abs_neg]; exact hx.bound

/-- A sum adds the errors of its operands and its own. -/
theorem fadd (hx : Approx x v k A) (hy : Approx y w l B) (h : A + B + k + l < 2 ^ 11) :
    Approx (fadd x y) (v + w) (k + l + 1) (A + B) := by
  have h' : (A + B + k + l : ℚ) < 2 ^ 11 := by exact_mod_cast h
  have hsum : |toRat x + toRat y| < 2 ^ 11 := by
    linarith [abs_add_le (toRat x) (toRat y), hx.abs_toRat_le, hy.abs_toRat_le]
  obtain ⟨hfin, hround⟩ := fadd_close hx.finite hy.finite hsum
  refine ⟨hfin, ?_, ?_⟩
  · calc |toRat (F64.fadd x y) - (v + w)|
        = |(toRat (F64.fadd x y) - (toRat x + toRat y)) + ((toRat x - v) + (toRat y - w))| := by congr 1; ring
      _ ≤ 1 / 2 ^ 43 + (k / 2 ^ 43 + l / 2 ^ 43) :=
          (abs_add_le _ _).trans (add_le_add hround ((abs_add_le _ _).trans (add_le_add hx.close hy.close)))
      _ = (k + l + 1 : Nat) / 2 ^ 43 := by push_cast; ring
  · push_cast
    exact (abs_add_le v w).trans (add_le_add hx.bound hy.bound)

theorem fsub (hx : Approx x v k A) (hy : Approx y w l B) (h : A + B + k + l < 2 ^ 11) :
    Approx (fsub x y) (v - w) (k + l + 1) (A + B) := by
  rw [sub_eq_add_neg]
  exact hx.fadd hy.negate h

/-- A product with a constant of magnitude at most 1 keeps the error of its operand and adds its own. -/
theorem fmul {c : F64} (hx : Approx x v k A) (hc : isFinite c = true) (hc1 : |toRat c| ≤ 1) (h : A + k < 2 ^ 11) :
    Approx (fmul x c) (v * toRat c) (k + 1) A := by
  have h' : (A + k : ℚ) < 2 ^ 11 := by exact_mod_cast h
  have hscale (a : ℚ) : |a * toRat c| ≤ |a| := by
    rw [abs_mul]
    exact mul_le_of_le_one_right (abs_nonneg a) hc1
  obtain ⟨hfin, hround⟩ := fmul_close hx.finite hc (by linarith [hscale (toRat x), hx.abs_toRat_le])
  refine ⟨hfin, ?_, (hscale v).trans hx.bound⟩
  calc |toRat (F64.fmul x c) - v * toRat c|
      = |(toRat (F64.fmul x c) - toRat x * toRat c) + (toRat x - v) * toRat c| := by congr 1; ring
    _ ≤ 1 / 2 ^ 43 + k / 2 ^ 43 := (abs_add_le _ _).trans (add_le_add hround ((hscale _).trans hx.close))
    _ = (k + 1 : Nat) / 2 ^ 43 := by push_cast; ring

/-- Half-integers are exact. -/
theorem ofHalves {t : Int} (ht : |t| < 2 ^ 53) (hB : |(t : ℚ) / 2| ≤ B) : Approx (ofHalves t) (t / 2) 0 B where
  finite := (toInt_ofHalves ht).1
  close := by simp [toRat_ofHalves ht]
  bound := hB

/-- What stands for a number near an integer is rounded to the integer. -/
theorem roundHalfAway_eq (hx : Approx x v k A) {q : Int} (h : |v - q| + k / 2 ^ 43 < 1 / 2) : roundHalfAway x = q :=
  F64.roundHalfAway_eq hx.finite (by linarith [abs_sub_le (toRat x) v q, hx.close])

end Approx

theorem canon_of_finite {x : F64} (h : isFinite x = true) : canon x = x := by
  rw [isFinite_eq, Bool.and_eq_true, Bool.not_eq_true'] at h
  rw [canon, h.1, if_neg Bool.false_ne_true]

theorem half_eq_ofHalves : half = ofHalves 1 := by decide +kernel

end Sys2Proof.F64

namespace Sys2Proof.Machine
open F64

/-! ### Rotation and back -/

/-- Constants that are the cosine and the sine of one angle, up to 2^-50. -/
structure IsRotation (c s : F64) : Prop where
  cos_finite : isFinite c = true
  sin_finite : isFinite s = true
  abs_cos_le : |toRat c| ≤ 1
  abs_sin_le : |toRat s| ≤ 1
  norm_close : |toRat c * toRat c + toRat s * toRat s - 1| ≤ 1 / 2 ^ 50

theorem toRat_of_toInt {x : F64} {m : Int} {k : Nat} (hk : k ≤ 1074) (h : toInt x = m * 2 ^ k) :
    toRat x = m / 2 ^ (1074 - k) := by
  have hunit : (2 : ℚ) ^ 1074 = 2 ^ k * 2 ^ (1074 - k) := by rw [← pow_add, Nat.add_sub_cancel' hk]
  rw [toRat, h, hunit, Int.cast_mul, Int.cast_pow, Int.cast_ofNat, mul_comm, mul_div_mul_left _ _ (by positivity)]

/-- The reset constants (R133). -/
theorem reset_isRotation : IsRotation 0x3FEF838B8C811C17#64 0x3FC63A1A7E0B7389#64 := by
  have hc := toRat_of_toInt (x := 0x3FEF838B8C811C17#64) (m := 0x1F838B8C811C17) (k := 1021) (by decide) (by decide +kernel)
  have hs := toRat_of_toInt (x := 0x3FC63A1A7E0B7389#64) (m := 0x163A1A7E0B7389) (k := 1019) (by decide) (by decide +kernel)
  refine ⟨by decide, by decide, ?_, ?_, ?_⟩
  · rw [hc, abs_le]; norm_num
  · rw [hs, abs_le]; norm_num
  · rw [hc, hs, abs_le]; norm_num

section
variable {c s re im : F64} {u v : ℚ} (h : IsRotation c s)
include h

/-- Forward rotation, three roundings a coordinate (R134). -/
theorem rotate_approx (hre : Approx re u 0 256) (him : Approx im v 0 256) :
    Approx (rotate c s re im).1 (u * toRat c - v * toRat s) 3 512 ∧
      Approx (rotate c s re im).2 (u * toRat s + v * toRat c) 3 512 := by
  have hx := (hre.fmul h.cos_finite h.abs_cos_le (by decide)).fsub
    (him.fmul h.sin_finite h.abs_sin_le (by decide)) (by decide)
  have hy := (hre.fmul h.sin_finite h.abs_sin_le (by decide)).fadd
    (him.fmul h.cos_finite h.abs_cos_le (by decide)) (by decide)
  rw [rotate, canon_of_finite hx.finite, canon_of_finite hy.finite]
  exact ⟨hx, hy⟩

/-- The inverse rotation of a point a few roundings off (R136). -/
theorem unrotate_approx (hre : Approx re u 3 512) (him : Approx im v 3 512) :
    Approx (unrotate c s re im).1 (u * toRat c + v * toRat s) 9 1024 ∧
      Approx (unrotate c s re im).2 (v * toRat c - u * toRat s) 9 1024 :=
  ⟨(hre.fmul h.cos_finite h.abs_cos_le (by decide)).fadd (him.fmul h.sin_finite h.abs_sin_le (by decide)) (by decide),
    (him.fmul h.cos_finite h.abs_cos_le (by decide)).fsub (hre.fmul h.sin_finite h.abs_sin_le (by decide)) (by decide)⟩

/-- There and back is multiplication by `c² + s²`, which is nearly 1. -/
theorem unrotate_rotate_approx (hre : Approx re u 0 256) (him : Approx im v 0 256) :
    let p := rotate c s re im
    Approx (unrotate c s p.1 p.2).1 (u * (toRat c * toRat c + toRat s * toRat s)) 9 1024 ∧
      Approx (unrotate c s p.1 p.2).2 (v * (toRat c * toRat c + toRat s * toRat s)) 9 1024 := by
  obtain ⟨hx, hy⟩ := rotate_approx h hre him
  obtain ⟨hre', him'⟩ := unrotate_approx h hx hy
  constructor
  · convert hre' using 1; ring
  · convert him' using 1; ring

end

/-! ### Index and coordinate -/

section
variable {sd idx : Nat} (hsd : sd ≤ 256) (hidx : idx ≤ sd + 2)
include hsd hidx

theorem abs_coord_le : |(idx - sd / 2 + 1 / 2 : ℚ)| ≤ 256 := by
  have hsd' : (sd : ℚ) ≤ 256 := by exact_mod_cast hsd
  have hidx' : (idx : ℚ) ≤ sd + 2 := by exact_mod_cast hidx
  have := sd.cast_nonneg (α := ℚ)
  have := idx.cast_nonneg (α := ℚ)
  rw [abs_le]
  constructor <;> linarith

/-- A lattice coordinate is exact (R132). -/
theorem latticeCoord_approx : Approx (latticeCoord sd idx) (idx - sd / 2 + 1 / 2) 0 256 := by
  have hval : ((2 * (idx : Int) - sd + 1 : Int) : ℚ) / 2 = idx - sd / 2 + 1 / 2 := by push_cast; ring
  rw [← hval]
  exact .ofHalves (by rw [abs_lt]; omega) (by rw [hval]; exact abs_coord_le hsd hidx)

/-- The index argument of a coordinate scaled by nearly 1 is rounded to the index the coordinate was made of (R135, R137). -/
theorem indexArg_rounds {x : F64} {g : ℚ} (hg : |g - 1| ≤ 1 / 2 ^ 50)
    (hx : Approx x ((idx - sd / 2 + 1 / 2) * g) 9 1024) :
    isFinite (indexArg sd x) = true ∧ roundHalfAway (indexArg sd x) = idx := by
  have hside : Approx (ofHalves sd) ((sd : Int) / 2) 0 256 :=
    .ofHalves (by rw [abs_lt]; omega) (by
      rw [abs_of_nonneg (by positivity)]
      have : (sd : ℚ) ≤ 256 := by exact_mod_cast hsd
      push_cast
      linarith)
  have hhalf : Approx half ((1 : Int) / 2) 0 1 := half_eq_ofHalves ▸ .ofHalves (by decide) (by norm_num [abs_le])
  have harg : Approx (indexArg sd x) _ 11 1281 := (hx.fadd hside (by decide)).fsub hhalf (by decide)
  refine ⟨harg.finite, harg.roundHalfAway_eq ?_⟩
  have hscale : |(idx - sd / 2 + 1 / 2 : ℚ) * (g - 1)| ≤ 256 * (1 / 2 ^ 50) := by
    rw [abs_mul]
    exact mul_le_mul (abs_coord_le hsd hidx) hg (abs_nonneg _) (by norm_num)
  calc |(idx - sd / 2 + 1 / 2 : ℚ) * g + (sd : Int) / 2 - (1 : Int) / 2 - (idx : Int)| + (11 : Nat) / 2 ^ 43
      = |(idx - sd / 2 + 1 / 2 : ℚ) * (g - 1)| + 11 / 2 ^ 43 := by push_cast; congr 2; ring
    _ < 1 / 2 := by linarith

end

/-! ### The lattice's indices (R131) -/

theorem side_le {n : Nat} (h : n ≤ 16) : side n ≤ 256 := by
  by_contra hgt
  have hsq : 257 * 257 ≤ side n * side n := Nat.mul_le_mul (by omega) (by omega)
  have hpow : 2 ^ n ≤ 2 ^ 16 := Nat.pow_le_pow_right two_pos h
  have := (sideIsIntegerSquareRoot n).1
  omega

/-- The imaginary index of a value may go past the side when `n` is odd, but not by more than 2. -/
theorem div_side_le {n v : Nat} (h : v < 2 ^ n) : v / side n ≤ side n + 2 := by
  refine Nat.le_of_lt_succ (Nat.div_lt_of_lt_mul ?_)
  have := (sideIsIntegerSquareRoot n).2.1
  have := side_pos n
  nlinarith

/-! ### The decision (R138 to R142) -/

section
variable {n v : Nat} (hv : v < 2 ^ n)
include hv

theorem outOfLattice_div_mod : outOfLattice n (v % side n : Nat) (v / side n : Nat) = false := by
  rw [Bool.eq_false_iff, Ne, outOfLattice_iff, ← Nat.cast_mul, ← Nat.cast_add, Nat.div_add_mod']
  have hmod := Nat.mod_lt v (side_pos n)
  have hdiv := Int.natCast_nonneg (v / side n)
  have hv' : (v : Int) < 2 ^ n := by exact_mod_cast hv
  omega

theorem sliceValue_div_mod {clamp : Bool} (h : clamp = true → n % 2 = 0) :
    sliceValue clamp n (v % side n : Nat) (v / side n : Nat) = v := by
  have hsplit : ((v / side n : Nat) : Int) * side n + (v % side n : Nat) = v := by exact_mod_cast Nat.div_add_mod' v _
  refine Int.ofNat_inj.1 ?_
  cases clamp with
  | false =>
    rw [sliceValue_wrap, hsplit]
    exact Int.emod_eq_of_lt (by omega) (by exact_mod_cast hv)
  | true =>
    obtain ⟨hr, hr', hi, hi'⟩ := (outOfLatticeIsOutsideSquare n _ _ (h rfl)).1 (outOfLattice_div_mod hv)
    rw [sliceValue_clamp n _ _ (side_pos n), clampIndex_of_mem _ _ hr hr', clampIndex_of_mem _ _ hi hi', hsplit]

end

/-- The word of a finite point in the lattice is its value (R142). -/
theorem word_of_inLattice {v : Nat} (h : v < 2 ^ 16) :
    ({ val := v, oor := false, nf := false } : SliceResult).word = BitVec.ofNat 32 v := by
  apply BitVec.eq_of_toNat_eq
  have hzero : (BitVec.ofBool false ++ BitVec.ofBool false ++ 0#14).toNat = 0 := by decide
  rw [SliceResult.word, BitVec.toNat_append, hzero, BitVec.toNat_ofNat, BitVec.toNat_ofNat, Nat.zero_shiftLeft, Nat.zero_or]
  show v % 2 ^ 16 = v % 2 ^ 32
  omega

/-- Slicing the point of a value gives the value, for any constants that are nearly a rotation. -/
theorem slicePoint_mapPoint {c s : F64} (h : IsRotation c s) {n v : Nat} {clamp : Bool} (hn : n ≤ 16) (hv : v < 2 ^ n)
    (hclamp : clamp = true → n % 2 = 0) :
    slicePoint c s clamp n (mapPoint c s (side n) v).1 (mapPoint c s (side n) v).2 =
      { val := v, oor := false, nf := false } := by
  have hre : v % side n ≤ side n + 2 := by
    have := Nat.mod_lt v (side_pos n)
    omega
  have him := div_side_le hv
  have hsd := side_le hn
  obtain ⟨hx, hy⟩ := unrotate_rotate_approx h (latticeCoord_approx hsd hre) (latticeCoord_approx hsd him)
  obtain ⟨hfinr, hr⟩ := indexArg_rounds hsd hre h.norm_close hx
  obtain ⟨hfini, hi⟩ := indexArg_rounds hsd him h.norm_close hy
  refine (decideSymbol_of_finite clamp n hfinr hfini).trans ?_
  rw [hr, hi, sliceValue_div_mod hv hclamp, outOfLattice_div_mod hv]

/-- Settles O35: the reset constants are nearly a rotation. -/
theorem noiselessRoundTrip : Obligations.NoiselessRoundTrip := by
  rintro n v clamp - hn hv hclamp p rfl
  have hv16 : v < 2 ^ 16 := hv.trans_le (Nat.pow_le_pow_right two_pos hn)
  rw [slicePoint_mapPoint reset_isRotation hn hv hclamp, word_of_inLattice hv16]

end Sys2Proof.Machine
end

section
/-! PROOFS. MAP and SLICE as commands (41_constellation.md R143 to R146): when they succeed, and what each leaves in its output
buffer, in its count and in STATUS. -/

namespace Sys2Proof.Machine

/-- A successful completion reads back the records its command left. -/
@[simp] theorem succeed_reElem (s : State) (k : Nat) : s.succeed.reElem k = s.reElem k := rfl
@[simp] theorem succeed_imElem (s : State) (k : Nat) : s.succeed.imElem k = s.imElem k := rfl

/-! ### MAP -/

theorem exec_map_succeeds_iff (n : Nat) (s t : State) :
    exec (.map n) s = .next t ∧ t.status.err = false ↔
      badMapBps s n = false ∧ s.valCnt.toNat ≤ s.params.valCap ∧ s.valCnt.toNat ≤ s.params.symCap ∧
        t = (mapBody n s.valCnt.toNat s).succeed := by
  have hexec : exec (.map n) s = .next (s.complete (mapCommand n s)) := rfl
  rw [hexec, Host.Outcome.next.injEq, complete_succeeds_iff]
  simp only [mapCommand_ok, and_assoc, exists_and_left, exists_eq_left]

/-- A MAP of all the values changes SYM_MEM, SYM_CNT and the completion bits (R144). -/
theorem mapBody_succeed_frame (n : Nat) (s : State) :
    (mapBody n s.valCnt.toNat s).succeed = { s with
      mem := (mapBody n s.valCnt.toNat s).mem, symCnt := s.valCnt
      status := { s.status with busy := false, done := true, err := false, errcode := 0#4 } } := by
  have hcnt : (mapBody n s.valCnt.toNat s).symCnt = s.valCnt := by simp
  exact congrArg (fun w => { s with
    mem := (mapBody n s.valCnt.toNat s).mem, symCnt := w, status := s.status.succeeded }) hcnt

/-- Settles O24: under its premises MAP passes its checks, and record `k` is the point of word `k`'s value field. -/
theorem mapWritesRotatedPoints : Obligations.MapWritesRotatedPoints := by
  intro n s hs hpos hn hodd hval hsym
  have hbps := (badMapBps_eq_false s n).2 ⟨(badBps_eq_false s n).2 ⟨hpos, hn⟩, hodd⟩
  obtain ⟨hexec, -⟩ := (exec_map_succeeds_iff n s _).2 ⟨hbps, hval, hsym, rfl⟩
  refine ⟨_, hexec, mapBody_succeed_frame n s, ?_, fun a ha => mapBody_readByte_outside n _ a s ha⟩
  rintro k hk re0 im0 x y rfl rfl rfl rfl
  rw [succeed_reElem, succeed_imElem, mapBody_reElem n _ k s hk, mapBody_imElem n _ k s hk, valueField_eq]
  exact ⟨rfl, rfl⟩

/-! ### SLICE -/

theorem exec_slice_succeeds_iff (n : Nat) (s t : State) :
    exec (.slice n) s = .next t ∧ t.status.err = false ↔
      badSliceBps s n = false ∧ s.symCnt.toNat ≤ s.params.symCap ∧ s.symCnt.toNat ≤ s.params.valCap ∧
        t = (sliceBody n s.symCnt.toNat s).succeed := by
  have hexec : exec (.slice n) s = .next (s.complete (sliceCommand n s)) := rfl
  rw [hexec, Host.Outcome.next.injEq, complete_succeeds_iff]
  simp only [sliceCommand_ok, and_assoc, exists_and_left, exists_eq_left]

/-- A SLICE of all the records changes VAL_MEM, VAL_CNT, two sticky flags and the completion bits (R145). -/
theorem sliceBody_succeed_frame (n : Nat) (s : State) :
    (sliceBody n s.symCnt.toNat s).succeed = { s with
      mem := (sliceBody n s.symCnt.toNat s).mem, valCnt := s.symCnt
      status := { s.status with
        busy := false, done := true, err := false, errcode := 0#4
        oorSeen := (sliceBody n s.symCnt.toNat s).status.oorSeen
        nfSeen := (sliceBody n s.symCnt.toNat s).status.nfSeen } } := by
  have hcnt : (sliceBody n s.symCnt.toNat s).valCnt = s.symCnt := by simp
  exact congrArg (fun w => { s with
    mem := (sliceBody n s.symCnt.toNat s).mem, valCnt := w
    status := (sliceBody n s.symCnt.toNat s).status.succeeded }) hcnt

/-- Bits 29:16 of the slicer's word are 0 (R142). -/
theorem word_reserved (r : SliceResult) : r.word.extractLsb' 16 14 = 0#14 := by
  rw [SliceResult.word, BitVec.extractLsb'_append_eq_of_le (by decide), BitVec.extractLsb'_append_eq_right]

/-- The word of a finite decision, field by field (R138 to R140, R142). -/
theorem decideSymbol_word_of_finite {clamp : Bool} {n : Nat} {tr ti : F64} (hn : n ≤ 16)
    (hclamp : clamp = true → n % 2 = 0) (hr : F64.isFinite tr = true) (hi : F64.isFinite ti = true) {r i : Int}
    (hr' : r = F64.roundHalfAway tr) (hi' : i = F64.roundHalfAway ti) {w : Word}
    (hw : w = (decideSymbol clamp n tr ti).word) :
    w.getLsbD 31 = false ∧
    (w.getLsbD 30 = true ↔ r < 0 ∨ (side n : Int) ≤ r ∨ i < 0 ∨ (2 ^ n : Int) ≤ i * side n + r) ∧
    w.extractLsb' 16 14 = 0#14 ∧
    ((w.extractLsb' 0 16).toNat : Int) =
      if clamp then min (max i 0) ((side n : Int) - 1) * side n + min (max r 0) ((side n : Int) - 1)
      else (i * side n + r) % 2 ^ n := by
  subst hr' hi' hw
  have hval : (decideSymbol clamp n tr ti).val < 2 ^ 16 :=
    (decideSymbol_val_lt clamp n tr ti hclamp).trans_le (Nat.pow_le_pow_right two_pos hn)
  have hfield := word_value _ hval
  rw [valueField] at hfield
  rw [word_getLsbD_31, word_getLsbD_30, hfield, decideSymbol_of_finite clamp n hr hi]
  refine ⟨rfl, outOfLattice_iff n _ _, word_reserved _, ?_⟩
  cases clamp with
  | false => exact sliceValue_wrap n _ _
  | true => exact sliceValue_clamp n _ _ (side_pos n)

/-- Settles O25: under its premises SLICE passes its checks, word `k` is the decision on record `k`, and the sticky flags gain what
any decision says. -/
theorem sliceDecidesSymbols : Obligations.SliceDecidesSymbols := by
  intro n s hs hpos hn hodd hsym hval
  obtain ⟨-, hmax, -⟩ := hs
  have hmap := (badMapBps_eq_false s n).2 ⟨(badBps_eq_false s n).2 ⟨hpos, hn⟩, hodd.imp_right And.left⟩
  have hbps := (badSliceBps_eq_false s n).2 ⟨hmap, hodd.imp_right And.right⟩
  obtain ⟨hexec, -⟩ := (exec_slice_succeeds_iff n s _).2 ⟨hbps, hsym, hval, rfl⟩
  have hword (k : Nat) (hk : k < s.symCnt.toNat) :
      (sliceBody n s.symCnt.toNat s).succeed.valElem k = (s.sliceElem n k).word :=
    sliceBody_valElem n _ k s hk
  have hclamp : s.ctrl.clamp = true → n % 2 = 0 := fun hc => hodd.resolve_right (by simp [hc])
  refine ⟨_, hexec, sliceBody_succeed_frame n s, ?_, ?_, ?_, fun a ha => sliceBody_readByte_outside n _ a s ha⟩
  · rintro k hk x y tr ti r i rfl rfl htr hti hr hi
    subst htr hti
    exact ⟨fun hnot => (hword k hk).trans (decideSymbol_word_of_not_finite _ n hnot),
      fun hfr hfi => decideSymbol_word_of_finite (hn.trans hmax) hclamp hfr hfi hr hi (hword k hk)⟩
  · rw [succeed_status, sliceBody_status, status_succeeded_oorSeen, status_sliced_oorSeen, Bool.or_eq_true,
      sliceBody_any_oor]
    exact or_congr_right (exists_congr fun k => and_congr_right fun hk => by rw [hword k hk, word_getLsbD_30])
  · rw [succeed_status, sliceBody_status, status_succeeded_nfSeen, status_sliced_nfSeen, Bool.or_eq_true,
      sliceBody_any_nf]
    exact or_congr_right (exists_congr fun k => and_congr_right fun hk => by rw [hword k hk, word_getLsbD_31])

end Sys2Proof.Machine
end

section
/-! PROOFS. MOD and DEMOD (42_pipeline.md R170 to R173): each succeeds exactly when the two commands it stands for do, one after
the other, and leaves what they leave. So what it does is what each of the two is proved to do, and the pipeline's round trip
(R172) is the one of MAP and SLICE (41_constellation.md R150) inside the one of PACK and UNPACK (40_bitpacker.md R115). -/

namespace Sys2Proof.Machine

/-! ### One command as two -/

/-- MOD succeeds exactly when PACK and then MAP do, with the same end state (R170). -/
theorem exec_mod_succeeds_iff (n : Nat) {s : State} (t : State) (hs : s.params.Legal) :
    exec (.mod n) s = .next t ∧ t.status.err = false ↔
      ∃ u, (exec (.pack n) s = .next u ∧ u.status.err = false) ∧
        exec (.map n) u = .next t ∧ t.status.err = false := by
  obtain ⟨_, _, _, _, _, hcap, _⟩ := hs
  have hexec : exec (.mod n) s = .next (s.complete (modCommand n s)) := rfl
  have hcount (h : packCount n s.byteLen.toNat ≤ s.params.valCap) :
      (packBody n s.byteLen.toNat s).succeed.valCnt.toNat = packCount n s.byteLen.toNat := toNat_ofNat_count h hcap
  rw [hexec, Host.Outcome.next.injEq, complete_succeeds_iff]
  constructor
  · rintro ⟨_, hok, rfl⟩
    obtain ⟨hbps, hbyte, hval, hsym, rfl⟩ := (modCommand_ok n s _).1 hok
    obtain ⟨hpos, hn⟩ := (badBps_eq_false s n).1 ((badMapBps_eq_false s n).1 hbps).1
    refine ⟨_, (exec_pack_succeeds_iff n s _).2 ⟨hpos, hn, hbyte, hval, rfl⟩, (exec_map_succeeds_iff n _ _).2 ?_⟩
    rw [hcount hval]
    exact ⟨hbps, hval, hsym, rfl⟩
  · rintro ⟨u, hu, ht⟩
    obtain ⟨-, -, hbyte, hval, rfl⟩ := (exec_pack_succeeds_iff n s u).1 hu
    obtain ⟨hbps, -, hsym, rfl⟩ := (exec_map_succeeds_iff n _ t).1 ht
    rw [hcount hval] at hsym ⊢
    exact ⟨_, (modCommand_ok n s _).2 ⟨hbps, hbyte, hval, hsym, rfl⟩, rfl⟩

/-- DEMOD succeeds exactly when SLICE and then UNPACK do, with the same end state (R171). -/
theorem exec_demod_succeeds_iff (n : Nat) (s t : State) :
    exec (.demod n) s = .next t ∧ t.status.err = false ↔
      ∃ u, (exec (.slice n) s = .next u ∧ u.status.err = false) ∧
        exec (.unpack n) u = .next t ∧ t.status.err = false := by
  have hexec : exec (.demod n) s = .next (s.complete (demodCommand n s)) := rfl
  have hcount : (sliceBody n s.symCnt.toNat s).succeed.valCnt = s.symCnt := by simp
  rw [hexec, Host.Outcome.next.injEq, complete_succeeds_iff]
  constructor
  · rintro ⟨_, hok, rfl⟩
    obtain ⟨hbps, hsym, hval, hbyte, rfl⟩ := (demodCommand_ok n s _).1 hok
    obtain ⟨hpos, hn⟩ := (badBps_eq_false s n).1 ((badMapBps_eq_false s n).1 ((badSliceBps_eq_false s n).1 hbps).1).1
    refine ⟨_, (exec_slice_succeeds_iff n s _).2 ⟨hbps, hsym, hval, rfl⟩, (exec_unpack_succeeds_iff n _ _).2 ?_⟩
    rw [hcount]
    exact ⟨hpos, hn, hval, hbyte, rfl⟩
  · rintro ⟨u, hu, ht⟩
    obtain ⟨hbps, hsym, hval, rfl⟩ := (exec_slice_succeeds_iff n s u).1 hu
    obtain ⟨-, -, -, hbyte, rfl⟩ := (exec_unpack_succeeds_iff n _ t).1 ht
    rw [hcount] at hbyte ⊢
    exact ⟨_, (demodCommand_ok n s _).2 ⟨hbps, hsym, hval, hbyte, rfl⟩, rfl⟩

/-- Settles O30: PACK and MAP make the same checks on the same count, and MAP's completion hides PACK's. -/
theorem modIsPackThenMap : Obligations.ModIsPackThenMap := by
  intro n s t hs ht hte
  obtain ⟨u, ⟨hu, -⟩, ht', -⟩ := (exec_mod_succeeds_iff n t hs).1 ⟨ht, hte⟩
  exact ⟨u, hu, ht'⟩

/-- Settles O31: SLICE and UNPACK make the same checks on the same count, and UNPACK's completion hides SLICE's. -/
theorem demodIsSliceThenUnpack : Obligations.DemodIsSliceThenUnpack := by
  intro n s t _ ht hte
  obtain ⟨u, ⟨hu, -⟩, ht', -⟩ := (exec_demod_succeeds_iff n s t).1 ⟨ht, hte⟩
  exact ⟨u, hu, ht'⟩

/-! ### The words between the two commands -/

/-- A word whose four bytes are unchanged is unchanged (20_memory.md R67). -/
theorem valElem_eq_of_readByte_eq {s t : State} {k : Nat}
    (h : ∀ j < 4, t.readByte (0x100000 + 4 * k + j) = s.readByte (0x100000 + 4 * k + j)) :
    t.valElem k = s.valElem k := by
  have hbytes : t.readBytes (Config.valBase + 4 * k) 4 = s.readBytes (Config.valBase + 4 * k) 4 :=
    List.map_congr_left fun j hj => h j (List.mem_range.1 hj)
  rw [State.valElem, State.valElem, hbytes]

/-- The values of a successful PACK are below `2^n` (R112). -/
theorem exec_pack_valElem_lt {n : Nat} {s u : State} (hs : s.params.Legal)
    (hu : exec (.pack n) s = .next u ∧ u.status.err = false) {k : Nat} (hk : k < u.valCnt.toNat) :
    (u.valElem k).toNat < 2 ^ n := by
  obtain ⟨-, -, -, -, hbits⟩ := exec_pack_stream hs hu
  refine Nat.lt_pow_two_of_testBit _ fun i hi => ?_
  rw [BitVec.testBit_toNat, hbits k i hk, decide_eq_false (Nat.not_lt.2 hi), Bool.false_and]

/-- The records of a successful MAP are the points of the words' value fields (R144). -/
theorem exec_map_records {n : Nat} {s u : State} (hu : exec (.map n) s = .next u ∧ u.status.err = false) {k : Nat}
    (hk : k < s.valCnt.toNat) (hlt : (s.valElem k).toNat < 2 ^ 16) :
    (u.reElem k, u.imElem k) = mapPoint s.rotCos s.rotSin (side n) (s.valElem k).toNat := by
  obtain ⟨-, -, -, rfl⟩ := (exec_map_succeeds_iff n s u).1 hu
  rw [succeed_reElem, succeed_imElem, mapBody_reElem n _ k s hk, mapBody_imElem n _ k s hk, valueField_eq,
    Nat.mod_eq_of_lt hlt]

/-- The words of a successful SLICE are the decisions on the records (R145). -/
theorem exec_slice_words {n : Nat} {s u : State} (hu : exec (.slice n) s = .next u ∧ u.status.err = false) {k : Nat}
    (hk : k < s.symCnt.toNat) :
    u.valElem k = (slicePoint s.rotCos s.rotSin s.ctrl.clamp n (s.reElem k) (s.imElem k)).word := by
  obtain ⟨-, -, -, rfl⟩ := (exec_slice_succeeds_iff n s u).1 hu
  exact sliceBody_valElem n _ k s hk

/-! ### The two commands' effects, one after the other -/

/-- Settles O26: PACK's effect, then MAP's, whose records lie above VAL_MEM. -/
theorem modModulatesTheStream : Obligations.ModModulatesTheStream := by
  intro n s hs hpos hn hodd hbyte hval hsym
  obtain ⟨_, hmax, _, _, _, hvalCap, _⟩ := id hs
  obtain ⟨u, hpack, hu, hcnt, hbits, hout⟩ := packPacksTheStream n s hs hpos hn hbyte hval
  have hmapu := mapWritesRotatedPoints n u
  obtain ⟨m, c, rfl⟩ : ∃ m c, u = { s with
      mem := m, valCnt := c
      status := { s.status with busy := false, done := true, err := false, errcode := 0#4 } } := ⟨_, _, hu⟩
  obtain ⟨t, hmap, ht, -, hout'⟩ := hmapu hs hpos hn hodd (hcnt.trans_le hval) (hcnt.trans_le hsym)
  obtain ⟨m', rfl⟩ : ∃ m', t = { s with
      mem := m', valCnt := c, symCnt := c
      status := { s.status with busy := false, done := true, err := false, errcode := 0#4 } } := ⟨_, ht⟩
  obtain ⟨hmod, -⟩ := (exec_mod_succeeds_iff n _ hs).2 ⟨_, ⟨hpack, rfl⟩, hmap, rfl⟩
  have hc : c.toNat ≤ s.params.valCap := hcnt.trans_le hval
  have hword (k : Nat) (hk : k < c.toNat) := valElem_eq_of_readByte_eq (k := k) fun j hj =>
    hout' _ (.inl (show 0x100000 + 4 * k + j < 0x1000000 by omega))
  refine ⟨_, hmod, rfl, hcnt, hcnt, fun k i hk => ?_, fun k hk => ?_, fun a ha ha' => ?_⟩
  · rw [hword k hk]
    exact hbits k i hk
  · have hlt := (exec_pack_valElem_lt hs ⟨hpack, rfl⟩ hk).trans_le (Nat.pow_le_pow_right two_pos (hn.trans hmax))
    rw [hword k hk]
    exact exec_map_records ⟨hmap, rfl⟩ hk hlt
  · exact (hout' a ha').trans (hout a ha)

/-- Settles O27: SLICE's effect, then UNPACK's, whose bytes lie below VAL_MEM. -/
theorem demodDemodulatesTheSignal : Obligations.DemodDemodulatesTheSignal := by
  intro n s hs hpos hn hodd hsym hval hbyte
  obtain ⟨_, _, _, hbyteCap, _⟩ := id hs
  obtain ⟨u, hslice, hu, -, hoor, hnf, hout⟩ := sliceDecidesSymbols n s hs hpos hn hodd hsym hval
  have hunpacku := unpackExpandsTheWords n u
  obtain ⟨m, o, f, rfl⟩ : ∃ m o f, u = { s with
      mem := m, valCnt := s.symCnt
      status := { s.status with
        busy := false, done := true, err := false, errcode := 0#4, oorSeen := o, nfSeen := f } } := ⟨_, _, _, hu⟩
  obtain ⟨t, hunpack, ht, hlen, hbits, hout'⟩ := hunpacku hs hpos hn hval hbyte
  obtain ⟨m', l, rfl⟩ : ∃ m' l, t = { s with
      mem := m', valCnt := s.symCnt, byteLen := l
      status := { s.status with
        busy := false, done := true, err := false, errcode := 0#4, oorSeen := o, nfSeen := f } } := ⟨_, _, ht⟩
  obtain ⟨hdemod, -⟩ := (exec_demod_succeeds_iff n s _).2 ⟨_, ⟨hslice, rfl⟩, hunpack, rfl⟩
  have hl : l.toNat ≤ s.params.byteCap := hlen.trans_le hbyte
  have hword (k : Nat) := valElem_eq_of_readByte_eq (k := k) fun j _ =>
    hout' _ (.inr (show 0x10000 + l.toNat ≤ 0x100000 + 4 * k + j by omega))
  refine ⟨_, hdemod, rfl, hlen, fun k hk => ?_, ?_, ?_, fun j hj => ?_, fun a ha ha' => ?_⟩
  · rw [hword k]
    exact exec_slice_words ⟨hslice, rfl⟩ hk
  · simp only [hword]
    exact hoor
  · simp only [hword]
    exact hnf
  · rw [hword (j / n)]
    exact hbits j hj
  · exact (hout' a ha).trans (hout a ha')

/-! ### The round trip (R172) -/

/-- PACK leaves the rotation constants as they were (R111). -/
theorem exec_pack_rot {n : Nat} {s u : State} (hu : exec (.pack n) s = .next u ∧ u.status.err = false) :
    u.rotCos = s.rotCos ∧ u.rotSin = s.rotSin := by
  obtain ⟨-, -, -, -, rfl⟩ := (exec_pack_succeeds_iff n s u).1 hu
  exact ⟨rfl, rfl⟩

/-- MAP and then SLICE, with the reset rotation constants, leave the parameters, VAL_CNT and every word that is a value below
`2^n` (41_constellation.md R150). -/
theorem exec_map_slice_roundTrip {n : Nat} {s u w : State} (hs : s.params.Legal) (hcos : s.rotCos = 0x3FEF838B8C811C17#64)
    (hsin : s.rotSin = 0x3FC63A1A7E0B7389#64) (hu : exec (.map n) s = .next u ∧ u.status.err = false)
    (hw : exec (.slice n) u = .next w ∧ w.status.err = false) :
    w.params = s.params ∧ w.valCnt = s.valCnt ∧
      ∀ k < s.valCnt.toNat, (s.valElem k).toNat < 2 ^ n → w.valElem k = s.valElem k := by
  obtain ⟨_, hmax, _⟩ := hs
  have hpoint (k : Nat) := exec_map_records hu (k := k)
  have hword (k : Nat) := exec_slice_words hw (k := k)
  obtain ⟨-, -, -, rfl⟩ := (exec_map_succeeds_iff n s u).1 hu
  obtain ⟨hbps, -, -, rfl⟩ := (exec_slice_succeeds_iff n _ w).1 hw
  obtain ⟨hmap, hodd⟩ := (badSliceBps_eq_false _ n).1 hbps
  obtain ⟨hpos, hn⟩ := (badBps_eq_false _ n).1 ((badMapBps_eq_false _ n).1 hmap).1
  have hn16 : n ≤ 16 := hn.trans hmax
  have hcnt : (mapBody n s.valCnt.toNat s).succeed.symCnt = s.valCnt := by simp
  refine ⟨rfl, by simp, fun k hk hlt => ?_⟩
  have htrip := noiselessRoundTrip n (s.valElem k).toNat s.ctrl.clamp hpos hn16 hlt
    (fun hc => hodd.resolve_right (by simp [hc])) _ rfl
  rw [← hcos, ← hsin, ← hpoint k hk (hlt.trans_le (Nat.pow_le_pow_right two_pos hn16)), BitVec.ofNat_toNat,
    BitVec.setWidth_eq] at htrip
  exact (hword k (by rwa [hcnt])).trans htrip

/-- A successful completion reads back the bytes its command left. -/
@[simp] theorem succeed_byteElem (s : State) (i : Nat) : s.succeed.byteElem i = s.byteElem i := rfl

/-- UNPACK's checks, its count and its bytes depend on the parameters, VAL_CNT and the words below it only (R114). -/
theorem exec_unpack_congr {n : Nat} {s s' t : State} (hparams : s'.params = s.params) (hcnt : s'.valCnt = s.valCnt)
    (hvals : ∀ k < s.valCnt.toNat, s'.valElem k = s.valElem k)
    (ht : exec (.unpack n) s' = .next t ∧ t.status.err = false) :
    ∃ q, (exec (.unpack n) s = .next q ∧ q.status.err = false) ∧ t.byteLen = q.byteLen ∧
      ∀ i < unpackCount n s.valCnt.toNat, t.byteElem i = q.byteElem i := by
  obtain ⟨hpos, hn, hval, hlen, rfl⟩ := (exec_unpack_succeeds_iff n s' t).1 ht
  rw [hparams] at hn hval hlen
  rw [hcnt] at hval hlen ⊢
  have hwords : (List.range s.valCnt.toNat).map s'.valElem = (List.range s.valCnt.toNat).map s.valElem :=
    List.map_congr_left fun k hk => hvals k (List.mem_range.1 hk)
  refine ⟨_, (exec_unpack_succeeds_iff n s _).2 ⟨hpos, hn, hval, hlen, rfl⟩, ?_, fun i hi => ?_⟩
  · rw [succeed_byteLen, succeed_byteLen, unpackBody_byteLen, unpackBody_byteLen]
  · rw [succeed_byteElem, succeed_byteElem, unpackBody_byteElem n _ i s' hi, unpackBody_byteElem n _ i s hi,
      hwords]

/-- Settles O36: SLICE gives back the words that MAP reads, so DEMOD's bytes are those of PACK and then UNPACK. -/
theorem pipelineRoundTrip : Obligations.PipelineRoundTrip := by
  intro n s u t hs hcos hsin hu hue ht hte
  obtain ⟨p, hp, hmap⟩ := (exec_mod_succeeds_iff n u hs).1 ⟨hu, hue⟩
  obtain ⟨w, hw, hunpack⟩ := (exec_demod_succeeds_iff n u t).1 ⟨ht, hte⟩
  obtain ⟨hpos, -, hparams, hcount, -⟩ := exec_pack_stream hs hp
  obtain ⟨hcosp, hsinp⟩ := exec_pack_rot hp
  obtain ⟨hparamsw, hcnt, hvals⟩ :=
    exec_map_slice_roundTrip (hparams ▸ hs) (hcosp.trans hcos) (hsinp.trans hsin) hmap hw
  obtain ⟨q, hq, hlen, hbytes⟩ := exec_unpack_congr hparamsw hcnt
    (fun k hk => hvals k hk (exec_pack_valElem_lt hs hp hk)) hunpack
  obtain ⟨-, -, -, hlenq, -⟩ := exec_unpack_stream (hparams ▸ hs) hq
  obtain ⟨-, hkept, hzero, hexact, hgrows⟩ := packUnpackContract n s p q hs hp.1 hp.2 hq.1 hq.2
  have hle : s.byteLen.toNat ≤ q.byteLen.toNat := by
    have h1 := (packCount_bounds n s.byteLen.toNat hpos).1
    have h2 := (unpackCount_bounds n p.valCnt.toNat).1
    rw [← hcount] at h1
    omega
  rw [← hlenq] at hbytes
  rw [hlen]
  refine ⟨fun i hi => (hbytes i (hi.trans_le hle)).trans (hkept i hi), hexact.2, fun hmod => ⟨?_, fun i hi hi' => ?_⟩⟩
  · rw [hgrows hmod]
    split <;> omega
  · exact (hbytes i hi').trans (hzero i hi hi')

end Sys2Proof.Machine
end

section
/-! PROOFS. SER and DESER as commands (43_serializer.md R180 to R184): when they succeed and what each leaves. SER turns SYM_CNT
into a stream length and DESER turns the length back; neither writes SYM_MEM, so one after the other they keep the signal. -/

namespace Sys2Proof.Machine

/-! ### SER -/

/-- What SER writes (R182): the length of the stream of all the records. -/
def serBody (s : State) : State := { s with sigLen := BitVec.ofNat 32 (16 * s.symCnt.toNat) }

theorem serCommand_ok (s t : State) :
    serCommand s = .ok t ↔ s.symCnt.toNat ≤ s.params.symCap ∧ t = serBody s := by
  simp only [serCommand, serBody, if_error_eq_ok, Except.ok.injEq, Nat.not_lt]
  rw [eq_comm (b := t)]

theorem exec_ser_succeeds_iff (n : Nat) (s t : State) :
    exec (.ser n) s = .next t ∧ t.status.err = false ↔
      s.symCnt.toNat ≤ s.params.symCap ∧ t = (serBody s).succeed := by
  have hexec : exec (.ser n) s = .next (s.complete (serCommand s)) := rfl
  rw [hexec, Host.Outcome.next.injEq, complete_succeeds_iff]
  simp only [serCommand_ok, and_assoc, exists_and_left, exists_eq_left]

/-- The stream of a signal that fits SYM_MEM has a length that fits SIG_LEN, whatever the legal capacity (00_scope.md R6). -/
theorem serBody_sigLen_toNat {s : State} (hs : s.params.Legal) (hsym : s.symCnt.toNat ≤ s.params.symCap) :
    (serBody s).sigLen.toNat = 16 * s.symCnt.toNat := by
  obtain ⟨_, _, _, _, _, _, _, hcap⟩ := hs
  exact (BitVec.toNat_ofNat ..).trans (Nat.mod_eq_of_lt (by omega))

/-- Settles O28: SER passes its one check, and the length it writes does not wrap. -/
theorem serGivesStreamLength : Obligations.SerGivesStreamLength := by
  intro n s hs hsym
  obtain ⟨hexec, -⟩ := (exec_ser_succeeds_iff n s _).2 ⟨hsym, rfl⟩
  exact ⟨_, hexec, serBody_sigLen_toNat hs hsym, rfl⟩

/-! ### DESER -/

/-- What DESER writes (R181, R183): the number of whole records, and TRUNC_SEEN when it drops a partial one. -/
def deserBody (s : State) : State :=
  { s with
    symCnt := BitVec.ofNat 32 (s.sigLen.toNat / 16)
    status := { s.status with truncSeen := s.status.truncSeen || decide (s.sigLen.toNat % 16 ≠ 0) } }

/-- On a stream of whole records DESER writes SYM_CNT only. -/
theorem deserBody_of_whole {s : State} (h : s.sigLen.toNat % 16 = 0) :
    deserBody s = { s with symCnt := BitVec.ofNat 32 (s.sigLen.toNat / 16) } := by
  simp [deserBody, h]

/-- On a stream that ends in a partial record DESER also sets TRUNC_SEEN. -/
theorem deserBody_of_partial {s : State} (h : s.sigLen.toNat % 16 ≠ 0) :
    deserBody s = { s with
      symCnt := BitVec.ofNat 32 (s.sigLen.toNat / 16), status := s.status.truncated } := by
  simp [deserBody, Status.truncated, h]

theorem deserCommand_ok (s t : State) :
    deserCommand s = .ok t ↔ s.sigLen.toNat ≤ 16 * s.params.symCap ∧
      (s.sigLen.toNat % 16 = 0 ∨ s.ctrl.trunc = true) ∧ t = deserBody s := by
  rw [deserCommand, if_error_eq_ok, Nat.not_lt]
  refine and_congr_right fun _ => ?_
  by_cases hmod : s.sigLen.toNat % 16 = 0
  case pos => simp [hmod, deserBody_of_whole, eq_comm (b := t)]
  case neg => cases htrunc : s.ctrl.trunc <;> simp [hmod, deserBody_of_partial, eq_comm (b := t)]

theorem exec_deser_succeeds_iff (n : Nat) (s t : State) :
    exec (.deser n) s = .next t ∧ t.status.err = false ↔
      s.sigLen.toNat ≤ 16 * s.params.symCap ∧ (s.sigLen.toNat % 16 = 0 ∨ s.ctrl.trunc = true) ∧
        t = (deserBody s).succeed := by
  have hexec : exec (.deser n) s = .next (s.complete (deserCommand s)) := rfl
  rw [hexec, Host.Outcome.next.injEq, complete_succeeds_iff]
  simp only [deserCommand_ok, and_assoc, exists_and_left, exists_eq_left]

theorem deserBody_symCnt_toNat (s : State) : (deserBody s).symCnt.toNat = s.sigLen.toNat / 16 :=
  (BitVec.toNat_ofNat ..).trans (Nat.mod_eq_of_lt (by omega))

/-- Settles O29: DESER passes its two checks, and the count it writes is no more than SIG_LEN. -/
theorem deserGivesSymbolCount : Obligations.DeserGivesSymbolCount := by
  intro n s hlen htrunc
  obtain ⟨hexec, -⟩ := (exec_deser_succeeds_iff n s _).2 ⟨hlen, htrunc, rfl⟩
  exact ⟨_, hexec, deserBody_symCnt_toNat s, rfl⟩

/-! ### The round trip (R184) -/

/-- Settles O34: SER's stream has only whole records, so DESER accepts it and counts them again; the memory is the same. -/
theorem serDeserRoundTrip : Obligations.SerDeserRoundTrip := by
  intro a b s hs hsym
  have hlen : (serBody s).succeed.sigLen.toNat = 16 * s.symCnt.toNat := serBody_sigLen_toNat hs hsym
  have hfits : (serBody s).succeed.sigLen.toNat ≤ 16 * s.params.symCap := by omega
  have hwhole : (serBody s).succeed.sigLen.toNat % 16 = 0 := by omega
  have hcount : (deserBody (serBody s).succeed).symCnt.toNat = s.symCnt.toNat := by
    rw [deserBody_symCnt_toNat, hlen]
    omega
  obtain ⟨hser, -⟩ := (exec_ser_succeeds_iff a s _).2 ⟨hsym, rfl⟩
  obtain ⟨hdeser, herr⟩ := (exec_deser_succeeds_iff b _ _).2 ⟨hfits, .inl hwhole, rfl⟩
  refine ⟨_, _, hser, hdeser, herr, BitVec.eq_of_toNat_eq hcount, fun k => ?_⟩
  obtain ⟨-, -, hre, him⟩ := elems_congr (s := s) (t := (deserBody (serBody s).succeed).succeed) rfl rfl k
  exact ⟨hre, him⟩

end Sys2Proof.Machine
end

section
/-! PROOFS. NOP as a command (44_control.md R190): it has no check to fail and makes no state of its own, so its completion is
the whole of its effect. -/

namespace Sys2Proof.Machine

theorem exec_nop (n : Nat) (s : State) : exec (.nop n) s = .next s.succeed :=
  calc exec (.nop n) s
    _ = .next (s.complete (.ok s)) := rfl
    _ = .next s.succeed := by rw [complete_ok]

/-- Settles O21: NOP's completion is the successful one, on the state NOP was given. -/
theorem nopCompletes : Obligations.NopCompletes := by
  intro n s
  rw [exec_nop, State.succeed, Status.succeeded]

end Sys2Proof.Machine
end

section
/-! PROOFS. How a command ends (60_exceptions.md R200 to R210): its completion, the error code it leaves, check by check, and
the acceptance or refusal of the word that starts it. -/

namespace Sys2Proof.Machine

/-! ### Completion (R204, R206, R207) -/

/-- Settles O8: a command completes by failing on the state it was given, or by succeeding on the state it made. -/
theorem everyCommandCompletes : Obligations.EveryCommandCompletes := by
  intro i s
  obtain ⟨r, hexec, -⟩ := exec_eq_complete i s
  refine ⟨_, hexec, complete_busy s r, complete_done s r, ?_⟩
  rcases complete_cases s r with ⟨e, -, hc⟩ | ⟨u, -, hc⟩
  · rw [hc]
    exact ⟨fun _ => ⟨e, rfl⟩, fun herr => by simp at herr⟩
  · rw [hc]
    exact ⟨fun herr => by simp at herr, fun _ => rfl⟩

theorem ErrCode.code_injective : Function.Injective ErrCode.code := by
  intro e f h
  cases e <;> cases f <;> simp [ErrCode.code] at h ⊢

/-- The code in STATUS says which error was raised: a success leaves 0, which is no error's code. -/
theorem complete_errcode_eq_iff (s : State) (r : Except ErrCode State) (e : ErrCode) :
    (s.complete r).status.errcode = e.code ↔ r = .error e := by
  cases r with
  | error f => simp [ErrCode.code_injective.eq_iff]
  | ok t => simp [e.code_bounds.2.symm]

/-- What a command answers to its completion: its checks, then its writes. -/
def commandResult (i : Instr) (s : State) : Except ErrCode State :=
  match i with
  | .nop _ => .ok s
  | .pack n => packCommand n s
  | .map n => mapCommand n s
  | .slice n => sliceCommand n s
  | .unpack n => unpackCommand n s
  | .mod n => modCommand n s
  | .demod n => demodCommand n s
  | .ser _ => serCommand s
  | .deser _ => deserCommand s

theorem exec_eq_complete_commandResult (i : Instr) (s : State) :
    exec i s = .next (s.complete (commandResult i s)) := by
  cases i <;> rfl

/-- A command ends with the code of `e` exactly when it answers that error. -/
theorem exec_errcode_iff {i : Instr} {s : State} {p : Prop} (e : ErrCode) (h : commandResult i s = .error e ↔ p) :
    ∃ t, exec i s = .next t ∧ (t.status.errcode = e.code ↔ p) :=
  ⟨_, exec_eq_complete_commandResult i s, (complete_errcode_eq_iff s _ e).trans h⟩

theorem exec_errcode_ne {i : Instr} {s : State} (e : ErrCode) (h : commandResult i s ≠ .error e) :
    ∃ t, exec i s = .next t ∧ t.status.errcode ≠ e.code :=
  ⟨_, exec_eq_complete_commandResult i s, (complete_errcode_eq_iff s _ e).not.2 h⟩

/-! ### The BPS check (R205) -/

theorem badBps_eq_true (s : State) (n : Nat) : badBps s n = true ↔ n = 0 ∨ s.params.maxBps < n := by
  simp [badBps]

theorem badMapBps_eq_true (s : State) (n : Nat) :
    badMapBps s n = true ↔ n = 0 ∨ s.params.maxBps < n ∨ n % 2 = 1 ∧ s.ctrl.legacyOdd = false := by
  simp [badMapBps, badBps_eq_true, or_assoc]

theorem badSliceBps_eq_true (s : State) (n : Nat) :
    badSliceBps s n = true ↔
      n = 0 ∨ s.params.maxBps < n ∨ n % 2 = 1 ∧ (s.ctrl.legacyOdd = false ∨ s.ctrl.clamp = true) := by
  simp [badSliceBps, badMapBps_eq_true, or_assoc, and_or_left]

/-! ### The errors of each command, in the order of its checks (R203, R205, R209, R210) -/

/-- `r` is what a command answers that checks BPS first, then its capacities, and nothing else. -/
structure ChecksBpsThenCapacity (r : Except ErrCode State) (bad : Bool) (tooLong : Prop) : Prop where
  invalid : r = .error .invalidParameter ↔ bad = true
  capacity : bad = false → (r = .error .capacityExceeded ↔ tooLong)
  not_corrupt : r ≠ .error .corruptSignal

theorem checksBpsThenCapacity_ite (bad : Bool) (tooLong : Prop) [Decidable tooLong] (t : State) :
    ChecksBpsThenCapacity
      (if bad then .error .invalidParameter else if tooLong then .error .capacityExceeded else .ok t)
      bad tooLong := by
  cases bad
  case true => constructor <;> simp
  case false => by_cases hlong : tooLong <;> constructor <;> simp [hlong]

theorem packCommand_checks (n : Nat) (s : State) :
    ChecksBpsThenCapacity (packCommand n s) (badBps s n)
      (s.params.byteCap < s.byteLen.toNat ∨ s.params.valCap < packCount n s.byteLen.toNat) := by
  simp only [packCommand, ← ite_or]
  exact checksBpsThenCapacity_ite ..

theorem unpackCommand_checks (n : Nat) (s : State) :
    ChecksBpsThenCapacity (unpackCommand n s) (badBps s n)
      (s.params.valCap < s.valCnt.toNat ∨ s.params.byteCap < unpackCount n s.valCnt.toNat) := by
  simp only [unpackCommand, ← ite_or]
  exact checksBpsThenCapacity_ite ..

theorem mapCommand_checks (n : Nat) (s : State) :
    ChecksBpsThenCapacity (mapCommand n s) (badMapBps s n)
      (s.params.valCap < s.valCnt.toNat ∨ s.params.symCap < s.valCnt.toNat) := by
  simp only [mapCommand, ← ite_or]
  exact checksBpsThenCapacity_ite ..

theorem sliceCommand_checks (n : Nat) (s : State) :
    ChecksBpsThenCapacity (sliceCommand n s) (badSliceBps s n)
      (s.params.symCap < s.symCnt.toNat ∨ s.params.valCap < s.symCnt.toNat) := by
  simp only [sliceCommand, ← ite_or]
  exact checksBpsThenCapacity_ite ..

theorem modCommand_checks (n : Nat) (s : State) :
    ChecksBpsThenCapacity (modCommand n s) (badMapBps s n)
      (s.params.byteCap < s.byteLen.toNat ∨ s.params.valCap < packCount n s.byteLen.toNat ∨
        s.params.symCap < packCount n s.byteLen.toNat) := by
  simp only [modCommand, ← ite_or]
  exact checksBpsThenCapacity_ite ..

theorem demodCommand_checks (n : Nat) (s : State) :
    ChecksBpsThenCapacity (demodCommand n s) (badSliceBps s n)
      (s.params.symCap < s.symCnt.toNat ∨ s.params.valCap < s.symCnt.toNat ∨
        s.params.byteCap < unpackCount n s.symCnt.toNat) := by
  simp only [demodCommand, ← ite_or]
  exact checksBpsThenCapacity_ite ..

/-- SER has one check, of its capacity (43_serializer.md R182). -/
theorem serCommand_error_iff (s : State) (e : ErrCode) :
    serCommand s = .error e ↔ s.params.symCap < s.symCnt.toNat ∧ e = .capacityExceeded := by
  by_cases hlong : s.params.symCap < s.symCnt.toNat <;> simp [serCommand, hlong, eq_comm (a := e)]

/-- DESER has two checks, of its capacity and then of a partial record that CTRL.TRUNC does not drop (43_serializer.md R183). -/
theorem deserCommand_error_iff (s : State) (e : ErrCode) :
    deserCommand s = .error e ↔
      16 * s.params.symCap < s.sigLen.toNat ∧ e = .capacityExceeded ∨
        (s.sigLen.toNat ≤ 16 * s.params.symCap ∧ s.sigLen.toNat % 16 ≠ 0 ∧ s.ctrl.trunc = false) ∧
          e = .corruptSignal := by
  simp only [deserCommand]
  split_ifs with hlong hpartial htrunc
  · simp [hlong, Nat.not_le.2 hlong, eq_comm (a := e)]
  · simp [hlong, htrunc]
  · simp [hlong, Nat.not_lt.1 hlong, hpartial, htrunc, eq_comm (a := e)]
  · simp [hlong, not_not.1 hpartial]

/-- Settles O18: the BPS check decides alone, because it comes first; the three other commands have no such check. -/
theorem invalidParameterCauses : Obligations.InvalidParameterCauses := by
  intro n s
  have hbps := badBps_eq_true s n
  have hmap := badMapBps_eq_true s n
  have hslice := badSliceBps_eq_true s n
  exact ⟨exec_errcode_iff .invalidParameter ((packCommand_checks n s).invalid.trans hbps),
    exec_errcode_iff .invalidParameter ((unpackCommand_checks n s).invalid.trans hbps),
    exec_errcode_iff .invalidParameter ((mapCommand_checks n s).invalid.trans hmap),
    exec_errcode_iff .invalidParameter ((modCommand_checks n s).invalid.trans hmap),
    exec_errcode_iff .invalidParameter ((sliceCommand_checks n s).invalid.trans hslice),
    exec_errcode_iff .invalidParameter ((demodCommand_checks n s).invalid.trans hslice),
    exec_errcode_ne .invalidParameter (by simp [commandResult]),
    exec_errcode_ne .invalidParameter (by simp [commandResult, serCommand_error_iff]),
    exec_errcode_ne .invalidParameter (by simp [commandResult, deserCommand_error_iff])⟩

/-- Settles O19: once BPS has passed, each command's capacity checks decide. -/
theorem capacityExceededCauses : Obligations.CapacityExceededCauses := by
  intro n s
  refine ⟨fun hpos hn => ?_, fun hpos hn hodd => ?_, fun hpos hn hodd => ?_,
    exec_errcode_iff .capacityExceeded (by simp [commandResult, serCommand_error_iff]),
    exec_errcode_iff .capacityExceeded (by simp [commandResult, deserCommand_error_iff])⟩
  · have hbps := (badBps_eq_false s n).2 ⟨hpos, hn⟩
    exact ⟨exec_errcode_iff .capacityExceeded ((packCommand_checks n s).capacity hbps),
      exec_errcode_iff .capacityExceeded ((unpackCommand_checks n s).capacity hbps)⟩
  · have hbps := (badMapBps_eq_false s n).2 ⟨(badBps_eq_false s n).2 ⟨hpos, hn⟩, hodd⟩
    exact ⟨exec_errcode_iff .capacityExceeded ((mapCommand_checks n s).capacity hbps),
      exec_errcode_iff .capacityExceeded ((modCommand_checks n s).capacity hbps)⟩
  · obtain ⟨hlegacy, hclamp⟩ := or_and_left.1 hodd
    have hbps := (badSliceBps_eq_false s n).2
      ⟨(badMapBps_eq_false s n).2 ⟨(badBps_eq_false s n).2 ⟨hpos, hn⟩, hlegacy⟩, hclamp⟩
    exact ⟨exec_errcode_iff .capacityExceeded ((sliceCommand_checks n s).capacity hbps),
      exec_errcode_iff .capacityExceeded ((demodCommand_checks n s).capacity hbps)⟩

/-- Settles O20, command by command: only DESER's second check raises CorruptSignal. -/
theorem corruptSignalCause : Obligations.CorruptSignalCause := by
  intro i s
  refine exec_errcode_iff .corruptSignal ?_
  cases i with
  | nop n => simp [commandResult]
  | pack n => simp [commandResult, (packCommand_checks n s).not_corrupt]
  | map n => simp [commandResult, (mapCommand_checks n s).not_corrupt]
  | slice n => simp [commandResult, (sliceCommand_checks n s).not_corrupt]
  | unpack n => simp [commandResult, (unpackCommand_checks n s).not_corrupt]
  | mod n => simp [commandResult, (modCommand_checks n s).not_corrupt]
  | demod n => simp [commandResult, (demodCommand_checks n s).not_corrupt]
  | ser n => simp [commandResult, serCommand_error_iff]
  | deser n => simp [commandResult, deserCommand_error_iff]

/-! ### The word's acceptance, and its turn (R200 to R202) -/

/-- Settles O5: at each head the step is the engine's, which does not look at the script. -/
theorem stepRunsDecodedCommand : Obligations.StepRunsDecodedCommand := by
  intro s i hb hdec
  exact ⟨fun hs => (step_nil_of_busy hb hs).trans (engineStep_of_ok hdec),
    fun rest hs => (step_engine_of_busy hb hs).trans (engineStep_of_ok hdec),
    fun rest hs => (step_wait_of_busy hb hs).trans (engineStep_of_ok hdec)⟩

/-- A whole word of the table is the command word itself (log 1). -/
theorem tableWord_toNat (w : Word) : tableWord 32 w.toNat = w := by
  rw [tableWord, Nat.mod_eq_of_lt w.isLt, BitVec.ofNat_toNat, BitVec.setWidth_eq]

/-- Settles O6: the placed word is accepted, the engine's turn takes it, and it decodes to its command. -/
theorem placedWordRuns : Obligations.PlacedWordRuns := by
  intro s i hi
  have hdec : decode (encode i) = .ok i := decodeOfEncode i hi
  rw [State.withFetchWord, tableWord_toNat]
  calc step (s.placeCommand (encode i))
    _ = engineStep (s.accept (encode i)) := step_engine_of_busy (rest := s.script) rfl rfl
    _ = exec i (s.accept (encode i)) := engineStep_of_ok hdec

/-- A write to a register that BUSY guards (70_reset_and_hazards.md R250; CMD: R201). -/
theorem transact_write_addr_refused {s : State} {r : Reg} (w : Word) (hr : r.guarded = true)
    (hb : s.status.busy = true) :
    s.transact (.write r.addr .four w) = (s.refuse, failedReply .slverr) := by
  obtain ⟨hlt, halign⟩ := r.addr_legal
  simp [State.transact, State.busWrite, route_register _ _ hlt halign, r.ofOffset_addr, hr, hb]

/-- Settles O52: each address of the list is that of a guarded register. -/
theorem busyRegisterWriteIsRefused : Obligations.BusyRegisterWriteIsRefused := by
  intro s addr v hb haddr
  have hrefused (r : Reg) (hr : r.guarded = true) := transact_write_addr_refused v hr hb
  simp only [List.mem_cons, List.not_mem_nil, or_false] at haddr
  rcases haddr with rfl | rfl | rfl | rfl | rfl | rfl | rfl | rfl | rfl | rfl
  · exact hrefused .ctrl rfl
  · exact hrefused .cmd rfl
  · exact hrefused .byteLen rfl
  · exact hrefused .valCnt rfl
  · exact hrefused .symCnt rfl
  · exact hrefused .sigLen rfl
  · exact hrefused .rotCosLo rfl
  · exact hrefused .rotCosHi rfl
  · exact hrefused .rotSinLo rfl
  · exact hrefused .rotSinHi rfl

/-- Settles O53: CMD's write is not guarded while BUSY is 0, and it accepts whatever it is given. -/
theorem cmdWriteAcceptsCommand : Obligations.CmdWriteAcceptsCommand :=
  fun s w hb => transact_write_addr s .cmd w (.inr hb)

end Sys2Proof.Machine
end

section
/-! PROOFS. Reset, the accesses a pending command refuses, and its end (70_reset_and_hazards.md R240, R251, R255). -/

namespace Sys2Proof.Machine

/-! ### Reset (R240) -/

/-- The parameters of the block are in their ranges (00_scope.md R6). -/
theorem reset_params_legal : State.reset.params.Legal := by decide

/-- No buffer byte is listed at reset (70_reset_and_hazards.md R242). -/
theorem reset_mem_legalIn (p : Params) : State.reset.mem.LegalIn p := ⟨reset_mem_wf, by simp [State.reset]⟩

/-- Settles O13, part by part of the invariant. -/
theorem resetStateIsLegal : Obligations.ResetStateIsLegal :=
  (inv_iff _).2 ⟨reset_params_legal, reset_mem_legalIn _, Status.reset_legal⟩

/-! ### Buffer accesses while BUSY is 1 (R251) -/

section
variable {s : State} {addr : Word} {size : Size} (hb : s.status.busy = true)
  (hroute : route s.params addr size = .buffer)
include hb hroute

theorem transact_read_buffer_refused : s.transact (.read addr size) = (s.refuse, failedReply .slverr) := by
  simp [State.transact, State.busRead, hroute, hb]

theorem transact_write_buffer_refused (v : Word) :
    s.transact (.write addr size v) = (s.refuse, failedReply .slverr) := by
  simp [State.transact, State.busWrite, hroute, hb]

end

/-- Settles O49: the access is routed to the buffers, where BUSY refuses it. -/
theorem busyBufferAccessIsRefused : Obligations.BusyBufferAccessIsRefused := by
  intro s addr v size hb halign hbuf
  have hroute := route_buffer s.params addr size halign hbuf
  exact ⟨transact_read_buffer_refused hb hroute, transact_write_buffer_refused hb hroute v⟩

/-! ### The end of a pending command (R202, R255) -/

/-- BUSY is 0 after a run of at most `n` steps from `s`. -/
def State.IdleWithin (s : State) (n : Nat) : Prop :=
  ∃ k t, k ≤ n ∧ Host.Core.run Sys2Proof.core k s = .next t ∧ t.status.busy = false

theorem State.IdleWithin.of_idle {s : State} (h : s.status.busy = false) (n : Nat) : s.IdleWithin n :=
  ⟨0, s, n.zero_le, run_zero s, h⟩

theorem State.IdleWithin.of_step {s t : State} {n : Nat} (hst : step s = .next t) (h : t.IdleWithin n) :
    s.IdleWithin (n + 1) := by
  obtain ⟨k, u, hk, hrun, hidle⟩ := h
  exact ⟨k + 1, u, Nat.succ_le_succ hk, (run_succ hst k).trans hrun, hidle⟩

/-- A step that is the engine's ends the command it runs (60_exceptions.md R202). -/
theorem State.IdleWithin.of_engineStep {s u : State} (h : step s = engineStep u) (n : Nat) : s.IdleWithin (n + 1) := by
  obtain ⟨r, hr, -⟩ := engineStep_eq_complete u
  exact .of_step (h.trans hr) (.of_idle (complete_busy u r) n)

/-- A host transaction leaves a pending command pending and adds no event (70_reset_and_hazards.md R250, R251). -/
theorem hostStep_of_busy {s : State} (hb : s.status.busy = true) (tx : Txn) :
    (s.hostStep tx).status.busy = true ∧ (s.hostStep tx).script = s.script := by
  obtain ⟨-, hbusy⟩ := pendingCommandInputsAreStable s tx hb
  obtain ⟨-, -, hscript, -⟩ := transact_frame s tx
  exact ⟨hbusy, hscript⟩

/-- Settles O10, by induction on the script: a host transaction shortens it, and every other step ends the command. -/
theorem pendingCommandEnds : Obligations.PendingCommandEnds := by
  intro s hb
  change s.IdleWithin (s.script.length + 1)
  induction hs : s.script generalizing s with
  | nil => exact .of_engineStep (step_nil_of_busy hb hs) 0
  | cons e rest ih =>
    obtain ⟨hbus, -, -, hreset, -⟩ := stepFollowsScript s rest
    cases e with
    | bus tx =>
      obtain ⟨hbusy, hscript⟩ := hostStep_of_busy (s := { s with script := rest }) hb tx
      exact .of_step (hbus tx hs) (ih _ hbusy hscript)
    | wait => exact .of_engineStep (step_wait_of_busy hb hs) _
    | engine => exact .of_engineStep (step_engine_of_busy hb hs) _
    | reset => exact .of_step (hreset hs) (.of_idle rfl _)

end Sys2Proof.Machine
end
